-- ==== Sys2Proof/Word.lean ====
section
/-! DEFINITION. The words of the device: bytes, 16-bit and 32-bit fields, and the numbers that name its fixed places. -/

namespace Sys2Proof

/-- One byte of a link (About This Manual: eight data bits). -/
abbrev Byte := BitVec 8

/-- A 16-bit field: a tag, a concentrator number, a truck unit, a kind mask, a CRC. -/
abbrev Word16 := BitVec 16

/-- A 32-bit field. -/
abbrev Word32 := BitVec 32

/-- A minute of the minute clock, a 32-bit count (Conventions (c), R189). -/
abbrev Minute := BitVec 32

/-- A bin number, a 32-bit identifier (R1). -/
abbrev BinNumber := BitVec 32

/-- A planner channel, 0 to 7. -/
abbrev Channel := Fin 8

/-- A zone, 0 to 63. -/
abbrev ZoneNo := Fin 64

/-- A calibration profile, 0 to 31. -/
abbrev ProfileNo := Fin 32

/-- A route index, 0 to 63. -/
abbrev RouteIdx := Fin 64

/-- A position of the Store Arbiter, 0 to 10 (Table 2.1). -/
abbrev ArbPos := Fin 11

end Sys2Proof
end

