-- ==== Sys2Proof/Syntax.lean ====
section
/-! DEFINITION. The commands of the device: one constructor for each row of spec/opcode_table.json. -/

namespace Sys2Proof

/-- The two byte-serial links (About This Manual, Connection (a) and (b)). -/
inductive Link where
  | field
  | planner
  deriving DecidableEq, Repr

/-- What abandons a frame by R47: a break on the line, or a byte whose stop bit stands at the space level. -/
inductive BreakCause where
  | lineBreak
  | badStopBit
  deriving DecidableEq, Repr

/-- The steps of the part (95_what_each_step_holds.md), each whole and indivisible.
A request step names the channel whose queue head is executed: the request's tag and body stand in that queue.
An entry step, a visit and an expiry step take their object from the Update Queue, the Walker or the due list. -/
inductive Instr where
  /-- POWER_ON (R182): RESETN is asserted. -/
  | powerOn
  /-- BYTE_RECEIVED (R43): a byte is taken at the end of its stop bit. -/
  | byteReceived (l : Link) (b : Byte)
  /-- FIELD_FRAME_COMPLETE (R45): the second CRC byte of a field frame arrives. -/
  | fieldFrameComplete (b : Byte)
  /-- FIELD_LENGTH_REFUSAL (R44): the second length byte of a field frame arrives, and the length is out of bounds. -/
  | fieldLengthRefusal (b : Byte)
  /-- FRAME_REPLY_SENT (R53): the field transmitter has sent the last byte of a reply. -/
  | frameReplySent
  /-- FRAME_GAP_EXPIRY (R46): the gap timer of a receiver runs out. -/
  | frameGapExpiry (l : Link)
  /-- BREAK (R47): a break, or a byte with a bad stop bit. -/
  | lineBreak (l : Link) (cause : BreakCause)
  /-- REQUEST_FRAME_COMPLETE (R166): the second CRC byte of a request frame arrives. -/
  | requestFrameComplete (b : Byte)
  /-- REQUEST_LENGTH_REFUSAL (R164): the second length byte of a request frame arrives, and the length is out of bounds. -/
  | requestLengthRefusal (b : Byte)
  /-- MARKER_IGNORED (R165): the byte that completes a request marker arrives while W + Q is 40. -/
  | markerIgnored (b : Byte)
  /-- RESPONSE_SENT (R165): the planner transmitter has sent the last byte of a response. -/
  | responseSent
  /-- FILL_ENTRY (R61). -/
  | fillEntry
  /-- EMPTIED_ENTRY (R62). -/
  | emptiedEntry
  /-- FAULT_ENTRY (R65). -/
  | faultEntry
  /-- REGISTER (R15). -/
  | register (ch : Channel)
  /-- AMEND (R17). -/
  | amend (ch : Channel)
  /-- RETIRE (R21). -/
  | retire (ch : Channel)
  /-- LOOKUP (R23). -/
  | lookup (ch : Channel)
  /-- STAGE_PROFILE (R71). -/
  | stageProfile (ch : Channel)
  /-- READ_PROFILE (R73). -/
  | readProfile (ch : Channel)
  /-- APPLY_PROFILES (R75). -/
  | applyProfiles (ch : Channel)
  /-- STAGE_ZONE (R103). -/
  | stageZone (ch : Channel)
  /-- APPLY_ZONE (R104). -/
  | applyZone (ch : Channel)
  /-- SET_ZONE_ATTRIBUTES (R107). -/
  | setZoneAttributes (ch : Channel)
  /-- ZONE_SUMMARY (R111). -/
  | zoneSummary (ch : Channel)
  /-- CLAIM (R116). -/
  | claim (ch : Channel)
  /-- EXTEND (R122). -/
  | extend (ch : Channel)
  /-- RELEASE (R123). -/
  | release (ch : Channel)
  /-- CONFIRM (R127). -/
  | confirm (ch : Channel)
  /-- ROUTE_STATUS (R125). -/
  | routeStatus (ch : Channel)
  /-- EXPORT (R155). -/
  | zoneExport (ch : Channel)
  /-- FETCH (R159). -/
  | fetch (ch : Channel)
  /-- ABORT_EXPORT (R160). -/
  | abortExport (ch : Channel)
  /-- WATCH (R175). -/
  | watch (ch : Channel)
  /-- UNWATCH (R176). -/
  | unwatch (ch : Channel)
  /-- SET_NOTICE_MASK (R174). -/
  | setNoticeMask (ch : Channel)
  /-- TAKE_NOTICES (R172). -/
  | takeNotices (ch : Channel)
  /-- CHANNEL_RESET (R178). -/
  | channelReset (ch : Channel)
  /-- START (R183). -/
  | start (ch : Channel)
  /-- TABLE_RESET (R184). -/
  | tableReset (ch : Channel)
  /-- SET_CLOCK (R190). -/
  | setClock (ch : Channel)
  /-- SET_PARAMETERS (R186). -/
  | setParameters (ch : Channel)
  /-- STATUS (R187). -/
  | status (ch : Channel)
  /-- UNKNOWN_REQUEST_KIND (R32). -/
  | unknownRequestKind (ch : Channel)
  /-- AGE_VISIT (R144). -/
  | ageVisit
  /-- RESCAN_VISIT (R145). -/
  | rescanVisit
  /-- RECAL_VISIT (R86). -/
  | recalVisit
  /-- MINUTE_ADVANCE (R189). -/
  | minuteAdvance
  /-- AGE_INTERVAL_PASSED (R140). -/
  | ageIntervalPassed
  /-- ROUTE_DEADLINE_DUE (R133). -/
  | routeDeadlineDue
  /-- EXPORT_IDLE_DUE (R161). -/
  | exportIdleDue
  /-- ROUTE_EXPIRY (R134). -/
  | routeExpiry
  /-- EXPORT_ABANDONED (R162). -/
  | exportAbandoned
  deriving DecidableEq, Repr

end Sys2Proof
end

