-- ==== Sys2Proof/Decode.lean ====
section
/-! DEFINITION. The command a table word spells. No row of spec/opcode_table.json gives any bits, so no word spells a command. -/

namespace Sys2Proof

/-- The command spelled by a word of `nbits` bits: none, the table giving no row bits. -/
def decodeTableWord (_nbits _w : Nat) : Option Instr := none

end Sys2Proof
end

