-- ==== Sys2Proof/Config.lean ====
section
/-! DEFINITION. What the part fixes (its sizes and limits) and the one value the manual leaves free: when storage damage comes about. -/

namespace Sys2Proof

/-- The condition of one stored group or index entry against its single-error-correcting, double-error-detecting code (section 10.4):
free of error, with one error, or damaged beyond correction. -/
inductive Health where
  | sound
  | single
  | double
  deriving DecidableEq, Repr

/-- What is stored under a code of its own (section 10.4): a way (number 4 × bucket + way), an overflow entry,
and the two groups of the record in a slot. -/
inductive StoreCell where
  | way (k : Nat)
  | overflow (k : Nat)
  | keyGroup (slot : Nat)
  | readingGroup (slot : Nat)
  deriving DecidableEq, Repr

/-- Damage that has come to one stored cell: how it then stands against its code. -/
structure Damage where
  cell : StoreCell
  health : Health
  deriving DecidableEq, Repr

namespace Config

/-- The damage, if any, that the n-th REFCLK period brings. FREE VALUE: the manual says that errors creep in (section 7.0, 10.4)
and never says when or where; nothing is known of this function (log entry 6). -/
opaque freeDamage : Nat → Option Damage

/-- Slots of the Slot Table (R7). -/
abbrev nSlots : Nat := 16384

/-- Buckets of the Bin Index (R9). -/
abbrev nBuckets : Nat := 4096

/-- Entries of the overflow area (R9). -/
abbrev nOverflow : Nat := 256

/-- Places of the Update Queue (R36). -/
abbrev updateQueuePlaces : Nat := 64

/-- Requests a channel queue holds (R33). -/
abbrev channelQueuePlaces : Nat := 4

/-- Replies the field transmitter's queue holds (R53). -/
abbrev replyPlaces : Nat := 4

/-- The bound on W + Q under which a request marker is taken (R165). -/
abbrev responsePlaces : Nat := 40

/-- Entries of a notice queue (R171). -/
abbrev noticePlaces : Nat := 32

/-- Rows of the Export Pool (R152). -/
abbrev poolRows : Nat := 2048

/-- REFCLK periods in a minute (R189). -/
abbrev minutePeriods : Nat := 1966080

/-- The greatest 32-bit value, at which the clock and the counters stay (R188, R189) and deadlines are capped (R119). -/
abbrev max32 : Nat := 4294967295

end Config

end Sys2Proof
end

