-- ==== Sys2Proof/Machine/State.lean ====
section
/-! DEFINITION. The state of the device, block by block (Table 0.2), as plain data, and the state at power-on. -/

namespace Sys2Proof.Machine

/-! ### Records (Chapter 1) -/

/-- The kind of a bin (Table 1.1). -/
inductive BinKind where
  | litter
  | glassClear
  | glassGreen
  | glassBrown
  deriving DecidableEq, Repr

/-- The class of a calibration profile (Table 4.1). -/
inductive ProfileClass where
  | litter
  | glass
  deriving DecidableEq, Repr

/-- The record state (R4). -/
inductive RecState where
  | new
  | live
  | silent
  | faulted
  | poisoned
  deriving DecidableEq, Repr

/-- Who reported the last applied emptying (Table 1.2). -/
inductive EmptiedBy where
  | truck (unit : Word16)
  | channel (ch : Channel)
  deriving DecidableEq, Repr

/-- Fill and its time, which are present together (R3). -/
structure FillReading where
  percent : Nat
  time : Minute
  deriving DecidableEq, Repr

/-- A FILL held back by the spike filter (R80). -/
structure PendingReading where
  percent : Nat
  raw : Nat
  time : Minute
  deriving DecidableEq, Repr

/-- The key group (R1, Table 1.1). The record's place in the ready list is held by the list itself; here stands whether it is a member. -/
structure KeyGroup where
  bin : BinNumber
  kind : BinKind
  zone : ZoneNo
  profile : ProfileNo
  state : RecState
  claim : Option RouteIdx
  ready : Bool
  urgent : Bool
  band : Option (Fin 10)
  registered : Minute
  deriving DecidableEq, Repr

/-- The reading group (R2, Table 1.2). -/
structure ReadingGroup where
  fill : Option FillReading
  lastRaw : Option Nat
  emptiedTime : Option Minute
  emptiedBy : Option EmptiedBy
  reportTime : Option Minute
  battery : Option Nat
  batteryLow : Bool
  pending : Option PendingReading
  faultCode : Option Nat
  deriving DecidableEq, Repr

/-- The reading group of a bin just registered (R2) or just poisoned (R6): every optional field absent, the battery low flag clear. -/
def ReadingGroup.empty : ReadingGroup :=
  { fill := none, lastRaw := none, emptiedTime := none, emptiedBy := none, reportTime := none,
    battery := none, batteryLow := false, pending := none, faultCode := none }

/-- An occupied slot: its two groups, and how each stands against its code (section 10.4). -/
structure BinRecord where
  key : KeyGroup
  reading : ReadingGroup
  keyHealth : Health
  readingHealth : Health
  deriving DecidableEq, Repr

/-- An index entry of a way (R9). -/
structure IndexEntry where
  bin : BinNumber
  slot : Nat
  deriving DecidableEq, Repr

/-- An index entry of the overflow area, tagged with its bucket (R9). -/
structure OverflowEntry where
  bucket : Nat
  bin : BinNumber
  slot : Nat
  deriving DecidableEq, Repr

/-! ### Zones and routes (Chapters 5 and 6) -/

/-- A pair of thresholds (R92). -/
structure Thresholds where
  collect : Nat
  urgent : Nat
  deriving DecidableEq, Repr

/-- The zone counters (R93, Table 5.2). -/
structure ZoneCounters where
  records : Nat
  readyMembers : Nat
  urgent : Nat
  claimed : Nat
  silent : Nat
  faulted : Nat
  bands : Vector Nat 10
  deriving DecidableEq, Repr

/-- The zone record (R91, Table 5.1). `watchers` says of each channel whether it is in the watcher set. -/
structure Zone where
  active : Thresholds
  staged : Thresholds
  claimLock : Bool
  noticeMute : Bool
  watchers : Vector Bool 8
  rescan : Bool
  readyList : List Nat
  counters : ZoneCounters
  deriving DecidableEq, Repr

/-- Every counter 0. -/
def ZoneCounters.zero : ZoneCounters :=
  { records := 0, readyMembers := 0, urgent := 0, claimed := 0, silent := 0, faulted := 0, bands := Vector.replicate 10 0 }

/-- A zone at power-on (R112(a)). -/
def Zone.reset : Zone :=
  { active := { collect := 80, urgent := 95 }, staged := { collect := 80, urgent := 95 }, claimLock := false,
    noticeMute := false, watchers := Vector.replicate 8 false, rescan := false, readyList := [], counters := ZoneCounters.zero }

/-- The state of a route member (R114, Table 6.2); the done time is present exactly when DONE. -/
inductive MemberState where
  | pending
  | done (time : Minute)
  | released
  | lost
  deriving DecidableEq, Repr

/-- A member of a route (Table 6.2). -/
structure Member where
  bin : BinNumber
  slot : Nat
  state : MemberState
  deriving DecidableEq, Repr

/-- A HELD route (R113, Table 6.1). -/
structure Route where
  owner : Channel
  tag : Word16
  created : Minute
  deadline : Minute
  members : List Member
  deriving DecidableEq, Repr

/-- The end status of a route (Table 6.10). -/
inductive EndStatus where
  | complete
  | closed
  | expired
  deriving DecidableEq, Repr

/-- The Record Store: the Slot Table (occupied slots, in rising order), the Bin Index (occupied ways, by 4 × bucket + way, and occupied
overflow entries, in rising order, with the ways and overflow entries that are not sound), the Zone Directory and the Route Table
(an entry is FREE when it is none). -/
structure RecordStore where
  slots : List (Nat × BinRecord)
  ways : List (Nat × IndexEntry)
  overflow : List (Nat × OverflowEntry)
  wayHealth : List (Nat × Health)
  overflowHealth : List (Nat × Health)
  zones : Vector Zone 64
  routes : Vector (Option Route) 64
  deriving DecidableEq, Repr

/-! ### Profiles (Chapter 4) -/

/-- A calibration profile (Table 4.1). -/
structure Profile where
  cls : ProfileClass
  emptyRef : Nat
  fullRef : Nat
  jump : Nat
  window : Nat
  drop : Nat
  silence : Nat
  lowBattery : Nat
  deriving DecidableEq, Repr

/-- A profile copy at power-on (R89(a)). -/
def Profile.reset : Profile :=
  { cls := .litter, emptyRef := 0, fullRef := 0, jump := 1, window := 1, drop := 1, silence := 10, lowBattery := 0 }

/-- The Profile Table (R68, R70). -/
structure ProfileTable where
  active : Vector Profile 32
  staged : Vector Profile 32
  users : Vector Nat 32
  deriving DecidableEq, Repr

/-! ### The links (Chapters 3 and 9) -/

/-- The receiver state (R42). -/
inductive RxState where
  | hunt
  | header
  | body
  | check
  deriving DecidableEq, Repr

/-- A link receiver (R42, R164). `len`, `body` and `crc` are the frame buffer; `gap` is the gap timer: stopped, or running with the limit
in ms that was in force when it was started (R46). -/
structure Receiver where
  state : RxState
  candidate : Bool
  len : List Byte
  body : List Byte
  crc : List Byte
  gap : Option Nat
  deriving DecidableEq, Repr

/-- A receiver in HUNT with the candidate clear, its buffer empty and its timer stopped (R42). -/
def Receiver.idle : Receiver :=
  { state := .hunt, candidate := false, len := [], body := [], crc := [], gap := none }

/-- The status of a frame reply (Table 3.3). -/
inductive FrameStatus where
  | accepted
  | crcError
  | notRunning
  | format
  | full
  deriving DecidableEq, Repr

/-- A frame reply in the field transmitter's queue (R53). -/
structure FrameReply where
  frame : Byte
  status : FrameStatus
  freePlaces : Nat
  deriving DecidableEq, Repr

/-- The Field Port (R42, R53). -/
structure FieldPort where
  rx : Receiver
  replies : List FrameReply
  deriving DecidableEq, Repr

/-- A raw reading with its resolution in bits (R77). -/
structure RawReading where
  resolution : Nat
  raw : Nat
  deriving DecidableEq, Repr

/-- What a report entry says beside its bin and its measured time (Table 3.4). -/
inductive Report where
  | fill (reading : RawReading) (battery : Nat)
  | emptied (truck : Word16) (residual : Option RawReading)
  | fault (code : Nat) (battery : Nat)
  deriving DecidableEq, Repr

/-- An Update Queue entry (section 2.5, R52): the entry as decoded and the concentrator of its frame. -/
structure Entry where
  bin : BinNumber
  time : Minute
  report : Report
  concentrator : Word16
  deriving DecidableEq, Repr

/-- The response codes (Table 11.13). -/
inductive RespCode where
  | ok
  | granted
  | alreadyRegistered
  | unknown
  | poisoned
  | claimed
  | profileUnusable
  | profileMismatch
  | tableFull
  | indexFull
  | badProfile
  | classConflict
  | badThreshold
  | duplicateTag
  | routesFull
  | refused
  | noRoute
  | notPending
  | future
  | stale
  | empty
  | exportOpen
  | noRoom
  | noExport
  | notConfig
  | backward
  | channelFull
  | purged
  | notPermitted
  | notRunning
  | halted
  | badRequest
  | linkError
  deriving DecidableEq, Repr

/-- A response in the planner transmitter's queue (R167). Channel, tag and kind are those received, a LINK_ERROR's damaged ones among them. -/
structure Response where
  channel : Byte
  tag : Word16
  kind : Byte
  code : RespCode
  body : List Byte
  deriving DecidableEq, Repr

/-- The Planner Port's receiver and the planner transmitter's response queue (R164, R165). The channel queues stand with their channels. -/
structure PlannerPort where
  rx : Receiver
  responses : List Response
  deriving DecidableEq, Repr

/-- An admitted request (section 2.4): its tag, kind code and body as received; its channel is that of the queue it stands in. -/
structure Request where
  tag : Word16
  kind : Byte
  body : List Byte
  deriving DecidableEq, Repr

/-! ### Notices (Chapter 9) -/

/-- The sixteen kinds of notice (Table 9.3), in the order of their codes (Table 11.14). -/
inductive NoticeKind where
  | ready
  | urgent
  | withdrawn
  | silent
  | faulted
  | batteryLow
  | unplannedEmpty
  | poisoned
  | stray
  | memberDone
  | memberLost
  | routeEnded
  | exportAbandoned
  | rescanDone
  | recalDone
  | deviceHalted
  deriving DecidableEq, Repr

/-- The value of a notice (Table 9.3). -/
inductive NoticeValue where
  | fill (percent : Nat)
  | concentrator (c : Word16)
  | routeEnd (tag : Word16) (status : EndStatus) (done released lost : Nat)
  | rowsFreed (n : Nat)
  deriving DecidableEq, Repr

/-- A notice entry (R169). -/
structure Notice where
  kind : NoticeKind
  zone : Option ZoneNo
  route : Option RouteIdx
  bin : Option BinNumber
  minute : Minute
  value : Option NoticeValue
  deriving DecidableEq, Repr

/-- One planner channel: its channel queue (R33), its notice queue, overflow flag and kind mask (R171), and its attention line (R173). -/
structure ChannelState where
  queue : List Request
  notices : List Notice
  overflow : Bool
  mask : BitVec 16
  attn : Bool
  deriving DecidableEq, Repr

/-- A channel at power-on (R41, R174, R180(a)). -/
def ChannelState.reset : ChannelState :=
  { queue := [], notices := [], overflow := false, mask := 0xFFFF#16, attn := false }

/-! ### Arbiter, Walker, Expiry Unit, Export Unit (Chapters 2, 7, 6 and 8) -/

/-- A grant in progress: its position and what the operation read at its grant, the minute clock (R29), for an EXPORT the free row count (R154),
and for a ZONE SUMMARY the staged thresholds (R111); a channel-local request may change the last two before the operation ends. -/
structure Grant where
  pos : ArbPos
  clock : Minute
  freeRows : Nat
  staged : Vector Thresholds 64
  deriving DecidableEq, Repr

/-- The store state (R25). -/
inductive StoreState where
  | idle
  | granted (g : Grant)
  deriving DecidableEq, Repr

/-- The Store Arbiter (R25). -/
structure Arbiter where
  pointer : ArbPos
  store : StoreState
  deriving DecidableEq, Repr

/-- The kind of a walk job with its job set (R137(a)); a set says of each number whether it is in it. -/
inductive JobKind where
  | age
  | recal (profiles : Vector Bool 32)
  | rescan (zones : Vector Bool 64)
  deriving DecidableEq, Repr

/-- A running walk job; the position is none at "start" (R137(a)). -/
structure Job where
  kind : JobKind
  position : Option Nat
  deriving DecidableEq, Repr

/-- The Table Walker (R137). `ageHanded` is the model's own: a rise of the age count still to be compared with the age interval (R140). -/
structure Walker where
  running : Option Job
  pendingRecal : Option (Vector Bool 32)
  pendingRescan : Option (Vector Bool 64)
  pendingAge : Bool
  ageCount : Nat
  ageHanded : Bool
  deriving DecidableEq, Repr

/-- An idle Walker with nothing pending (R137). -/
def Walker.reset : Walker :=
  { running := none, pendingRecal := none, pendingRescan := none, pendingAge := false, ageCount := 0, ageHanded := false }

/-- An item of the due list (R133). -/
inductive DueItem where
  | route (i : RouteIdx)
  | zoneExport (ch : Channel)
  deriving DecidableEq, Repr

/-- The Expiry Unit (R132, R133, R161). `handedRoutes` and `handedExports` are the model's own: the clock value handed over by the Clock Unit
with which the comparison of the deadline copies, and then of the exports, has still to be made (R189). -/
structure Expiry where
  deadlines : Vector (Option Minute) 64
  dueList : List DueItem
  handedRoutes : Option Minute
  handedExports : Option Minute
  deriving DecidableEq, Repr

/-- The Expiry Unit at power-on (R136(a)). -/
def Expiry.reset : Expiry :=
  { deadlines := Vector.replicate 64 none, dueList := [], handedRoutes := none, handedExports := none }

/-- An export row (R156, Table 8.3). -/
structure ExportRow where
  bin : BinNumber
  slot : Nat
  zone : ZoneNo
  kind : BinKind
  state : RecState
  fill : Option FillReading
  urgent : Bool
  batteryLow : Bool
  deriving DecidableEq, Repr

/-- An open export (R152, Table 8.1). -/
structure OpenExport where
  zone : ZoneNo
  rows : List ExportRow
  lastActivity : Minute
  deriving DecidableEq, Repr

/-- The Export Unit (R152); an export place is CLOSED when it is none. -/
structure ExportUnit where
  freeRows : Nat
  places : Vector (Option OpenExport) 8
  deriving DecidableEq, Repr

/-! ### Device Control and the Clock Unit (Chapter 10) -/

/-- The device condition (R182). -/
inductive Condition where
  | config
  | running
  | halted
  deriving DecidableEq, Repr

/-- The parameters (R186). -/
structure Params where
  ageInterval : Nat
  idleLimit : Nat
  gapLimit : Nat
  deriving DecidableEq, Repr

/-- The device counters, in the order of Table 10.4. -/
inductive Counter where
  | framesAccepted
  | framesCrcError
  | framesNotRunning
  | framesFormat
  | framesFull
  | framesAbandoned
  | repliesDiscarded
  | entriesApplied
  | entriesHeld
  | entriesStale
  | entriesFuture
  | entriesUnknown
  | entriesPoisonedBin
  | requestsLength
  | requestsAbandoned
  | markersIgnored
  | linkErrors
  | badChannels
  | channelFulls
  | noticesDropped
  | corrected
  | poisonedRecords
  | uncorrectable
  | uncorrectableHalted
  deriving DecidableEq, Repr

/-- Device Control (R182, R186, R188). -/
structure Control where
  condition : Condition
  haltLine : Bool
  params : Params
  counters : Vector Word32 24
  deriving DecidableEq, Repr

/-- The Clock Unit (R189). -/
structure ClockUnit where
  minute : Minute
  divider : Nat
  deriving DecidableEq, Repr

/-! ### The whole device -/

/-- The state of the device. `pending` is the queue of commands that wait, first in, first out; `freeCount` numbers the uses of the free
storage-damage value. Both are the model's own; every other field is a block of Table 0.2. -/
structure State where
  pending : List Instr
  freeCount : Nat
  fieldPort : FieldPort
  updateQueue : List Entry
  plannerPort : PlannerPort
  channels : Vector ChannelState 8
  arbiter : Arbiter
  store : RecordStore
  profiles : ProfileTable
  walker : Walker
  expiry : Expiry
  exportUnit : ExportUnit
  clock : ClockUnit
  control : Control
  deriving DecidableEq, Repr

/-- Why the device would stop: it never does. Damage halts it into the condition HALTED, in which it runs on (R185, R193), so this type has no
constructor: no command raises a fault. -/
inductive Fault where
  deriving DecidableEq, Repr

/-- Why a command would have no meaning. -/
inductive Refusal where
  /-- Raised by an arm of exec whose command has no meaning yet; safe, since the model stops there. No arm raises it. -/
  | notModelled (mnemonic : String)
  deriving DecidableEq, Repr

/-- The Record Store at power-on (R24(a), R112(a), R136(a)); every code sound (log entry 7). -/
def RecordStore.reset : RecordStore :=
  { slots := [], ways := [], overflow := [], wayHealth := [], overflowHealth := [],
    zones := Vector.replicate 64 Zone.reset, routes := Vector.replicate 64 none }

/-- The device at power-on (R24(a), R25, R41, R42, R89(a), R112(a), R136(a), R137, R152, R180(a), R182, R186, R189). -/
def State.reset : State :=
  { pending := []
    freeCount := 0
    fieldPort := { rx := Receiver.idle, replies := [] }
    updateQueue := []
    plannerPort := { rx := Receiver.idle, responses := [] }
    channels := Vector.replicate 8 ChannelState.reset
    arbiter := { pointer := 0, store := .idle }
    store := RecordStore.reset
    profiles := { active := Vector.replicate 32 Profile.reset, staged := Vector.replicate 32 Profile.reset,
                  users := Vector.replicate 32 0 }
    walker := Walker.reset
    expiry := Expiry.reset
    exportUnit := { freeRows := Config.poolRows, places := Vector.replicate 8 none }
    clock := { minute := 0, divider := 0 }
    control := { condition := .config, haltLine := false,
                 params := { ageInterval := 15, idleLimit := 10, gapLimit := 20 },
                 counters := Vector.replicate 24 0 } }

end Sys2Proof.Machine
end

