-- ==== Sys2Proof/Machine/Operands.lean ====
section
/-! DEFINITION. The operands of the commands as bytes: byte order and CRC (R195), the code tables (section 11.5), the reading of field frames and
request bodies (R50, R51, R196), and the building of replies, responses and their bodies (R197). -/

namespace Sys2Proof.Machine

/-! ### Byte order and CRC -/

/-- Two bytes, most significant first (Conventions (h)). -/
def be16 (hi lo : Byte) : Word16 := hi ++ lo

/-- Four bytes, most significant first. -/
def be32 (a b c d : Byte) : Word32 := (a ++ b) ++ (c ++ d)

/-- One byte of a number. -/
def byte1 (n : Nat) : List Byte := [BitVec.ofNat 8 n]

/-- A number in two bytes, most significant first. -/
def byte2 (n : Nat) : List Byte := [BitVec.ofNat 8 (n / 256), BitVec.ofNat 8 n]

/-- A number in four bytes, most significant first. -/
def byte4 (n : Nat) : List Byte :=
  [BitVec.ofNat 8 (n / 16777216), BitVec.ofNat 8 (n / 65536), BitVec.ofNat 8 (n / 256), BitVec.ofNat 8 n]

/-- A flag byte that holds one flag (Table 11.15). -/
def flagByte (b : Bool) : List Byte := [if b then 1#8 else 0#8]

/-- One bit of the CRC procedure (R195). -/
def crcBit (reg : Word16) (d : Bool) : Word16 :=
  if reg.msb != d then (reg <<< 1) ^^^ 0x1021#16 else reg <<< 1

/-- One byte of the CRC procedure, from its most significant bit to its least (R195). -/
def crcByte (reg : Word16) (b : Byte) : Word16 :=
  [7, 6, 5, 4, 3, 2, 1, 0].foldl (fun r i => crcBit r (b.getLsbD i)) reg

/-- The CRC of the covered bytes (R195). -/
def crc16 (bytes : List Byte) : Word16 := bytes.foldl crcByte 0xFFFF#16

/-- A CRC as sent, high byte first (R195). -/
def crcBytes (c : Word16) : List Byte := byte2 c.toNat

/-! ### Codes (section 11.5) -/

/-- The request kinds (Table 11.12). -/
inductive RequestKind where
  | register
  | amend
  | retire
  | lookup
  | stageProfile
  | readProfile
  | applyProfiles
  | stageZone
  | applyZone
  | setZoneAttributes
  | zoneSummary
  | claim
  | extend
  | release
  | confirm
  | routeStatus
  | zoneExport
  | fetch
  | abortExport
  | watch
  | unwatch
  | setNoticeMask
  | takeNotices
  | channelReset
  | start
  | tableReset
  | setClock
  | setParameters
  | status
  deriving DecidableEq, Repr

/-- Every request kind, in the order of the codes. -/
def allRequestKinds : List RequestKind :=
  [.register, .amend, .retire, .lookup, .stageProfile, .readProfile, .applyProfiles, .stageZone, .applyZone, .setZoneAttributes,
   .zoneSummary, .claim, .extend, .release, .confirm, .routeStatus, .zoneExport, .fetch, .abortExport, .watch, .unwatch,
   .setNoticeMask, .takeNotices, .channelReset, .start, .tableReset, .setClock, .setParameters, .status]

/-- The code of a request kind (Table 11.12). -/
def requestCode : RequestKind → Byte
  | .register => 0x01
  | .amend => 0x02
  | .retire => 0x03
  | .lookup => 0x04
  | .stageProfile => 0x10
  | .readProfile => 0x11
  | .applyProfiles => 0x12
  | .stageZone => 0x18
  | .applyZone => 0x19
  | .setZoneAttributes => 0x1A
  | .zoneSummary => 0x1B
  | .claim => 0x20
  | .extend => 0x21
  | .release => 0x22
  | .confirm => 0x23
  | .routeStatus => 0x24
  | .zoneExport => 0x28
  | .fetch => 0x29
  | .abortExport => 0x2A
  | .watch => 0x30
  | .unwatch => 0x31
  | .setNoticeMask => 0x32
  | .takeNotices => 0x33
  | .channelReset => 0x34
  | .start => 0x38
  | .tableReset => 0x39
  | .setClock => 0x3A
  | .setParameters => 0x3B
  | .status => 0x3C

/-- The request kind a code names, if any (Table 11.12: any other kind code names none). -/
def requestKindOf (code : Byte) : Option RequestKind :=
  allRequestKinds.find? (fun k => requestCode k == code)

/-- Store requests run under a grant; the others are channel-local (R32, Table 2.3). -/
def isStoreKind : RequestKind → Bool
  | .register | .amend | .retire | .lookup | .claim | .extend | .release | .confirm | .routeStatus | .applyProfiles | .applyZone
  | .setZoneAttributes | .zoneSummary | .zoneExport | .watch | .unwatch | .channelReset | .start | .tableReset | .setClock => true
  | .takeNotices | .setNoticeMask | .fetch | .abortExport | .stageProfile | .readProfile | .stageZone | .setParameters | .status => false

/-- Kinds reserved to channel 0 (Table 9.1). CHANNEL RESET has a rule of its own. -/
def isReservedKind : RequestKind → Bool
  | .register | .amend | .retire | .stageProfile | .readProfile | .applyProfiles | .stageZone | .applyZone | .setZoneAttributes
  | .start | .tableReset | .setClock | .setParameters | .status => true
  | .lookup | .zoneSummary | .claim | .extend | .release | .confirm | .routeStatus | .zoneExport | .fetch | .abortExport | .watch
  | .unwatch | .setNoticeMask | .takeNotices | .channelReset => false

/-- Kinds carried out in HALTED (R168(c)). -/
def runsHalted : RequestKind → Bool
  | .status | .tableReset | .channelReset | .takeNotices | .setNoticeMask => true
  | .register | .amend | .retire | .lookup | .stageProfile | .readProfile | .applyProfiles | .stageZone | .applyZone
  | .setZoneAttributes | .zoneSummary | .claim | .extend | .release | .confirm | .routeStatus | .zoneExport | .fetch | .abortExport
  | .watch | .unwatch | .start | .setClock | .setParameters => false

/-- The code of a response (Table 11.13). -/
def respCodeByte : RespCode → Byte
  | .ok => 0x00
  | .granted => 0x01
  | .alreadyRegistered => 0x10
  | .unknown => 0x11
  | .poisoned => 0x12
  | .claimed => 0x13
  | .profileUnusable => 0x14
  | .profileMismatch => 0x15
  | .tableFull => 0x16
  | .indexFull => 0x17
  | .badProfile => 0x20
  | .classConflict => 0x21
  | .badThreshold => 0x28
  | .duplicateTag => 0x30
  | .routesFull => 0x31
  | .refused => 0x32
  | .noRoute => 0x33
  | .notPending => 0x34
  | .future => 0x35
  | .stale => 0x36
  | .empty => 0x40
  | .exportOpen => 0x41
  | .noRoom => 0x42
  | .noExport => 0x43
  | .notConfig => 0x50
  | .backward => 0x51
  | .channelFull => 0xF1
  | .purged => 0xF2
  | .notPermitted => 0xF3
  | .notRunning => 0xF4
  | .halted => 0xF5
  | .badRequest => 0xF6
  | .linkError => 0xF7

/-- The code of a notice kind, which is also its bit in the kind mask (Table 11.14). -/
def noticeCode : NoticeKind → Nat
  | .ready => 0
  | .urgent => 1
  | .withdrawn => 2
  | .silent => 3
  | .faulted => 4
  | .batteryLow => 5
  | .unplannedEmpty => 6
  | .poisoned => 7
  | .stray => 8
  | .memberDone => 9
  | .memberLost => 10
  | .routeEnded => 11
  | .exportAbandoned => 12
  | .rescanDone => 13
  | .recalDone => 14
  | .deviceHalted => 15

/-- The code of a bin kind (Table 11.15). -/
def binKindCode : BinKind → Nat
  | .litter => 0
  | .glassClear => 1
  | .glassGreen => 2
  | .glassBrown => 3

/-- The bin kind a code names. -/
def binKindOf (b : Byte) : Option BinKind :=
  match b.toNat with
  | 0 => some .litter
  | 1 => some .glassClear
  | 2 => some .glassGreen
  | 3 => some .glassBrown
  | _ => none

/-- The code of a profile class (Table 11.15). -/
def classCode : ProfileClass → Nat
  | .litter => 0
  | .glass => 1

/-- The profile class a code names. -/
def classOf (b : Byte) : Option ProfileClass :=
  match b.toNat with
  | 0 => some .litter
  | 1 => some .glass
  | _ => none

/-- The code of a record state (Table 11.15). -/
def recStateCode : RecState → Nat
  | .new => 0
  | .live => 1
  | .silent => 2
  | .faulted => 3
  | .poisoned => 4

/-- The code of a member state (Table 11.15). -/
def memberStateCode : MemberState → Nat
  | .pending => 0
  | .done _ => 1
  | .released => 2
  | .lost => 3

/-- The code of an end status (Table 11.15). -/
def endStatusCode : EndStatus → Nat
  | .complete => 0
  | .closed => 1
  | .expired => 2

/-- The code of a condition (Table 11.15). -/
def conditionCode : Condition → Nat
  | .config => 0
  | .running => 1
  | .halted => 2

/-- The code of the Walker's running job (Table 11.15). -/
def runningJobCode : Option Job → Nat
  | none => 0
  | some j =>
    match j.kind with
    | .age => 1
    | .recal _ => 2
    | .rescan _ => 3

/-- The status byte of a frame reply (Table 11.4). -/
def frameStatusCode : FrameStatus → Nat
  | .accepted => 0
  | .crcError => 1
  | .notRunning => 2
  | .format => 3
  | .full => 4

/-! ### Numbered fields -/

/-- A channel number, when in range. -/
def channelOf (b : Byte) : Option Channel := if h : b.toNat < 8 then some ⟨b.toNat, h⟩ else none

/-- A zone number, when in range. -/
def zoneOf (b : Byte) : Option ZoneNo := if h : b.toNat < 64 then some ⟨b.toNat, h⟩ else none

/-- A profile number, when in range. -/
def profileOf (b : Byte) : Option ProfileNo := if h : b.toNat < 32 then some ⟨b.toNat, h⟩ else none

/-- A route index, when in range. -/
def routeOf (b : Byte) : Option RouteIdx := if h : b.toNat < 64 then some ⟨b.toNat, h⟩ else none

/-- A single flag byte: 0 or 1 (R196). -/
def flagOf (b : Byte) : Option Bool :=
  match b.toNat with
  | 0 => some false
  | 1 => some true
  | _ => none

/-- A bin number is from 1 to 4,294,967,294 (R1). -/
def validBin (b : BinNumber) : Bool := 1 ≤ b.toNat && b.toNat ≤ 4294967294

/-- A resolution from 8 to 12 and a raw reading below 2 to its power (R51(e), R51(f), R126(a)). -/
def validReading (r : RawReading) : Bool := 8 ≤ r.resolution && r.resolution ≤ 12 && r.raw < 2 ^ r.resolution

/-- As many bin numbers, four bytes each, as the count gives, with no byte left over. -/
def binList : Nat → List Byte → Option (List BinNumber)
  | 0, [] => some []
  | n + 1, a :: b :: c :: d :: rest => (binList n rest).map (fun bins => be32 a b c d :: bins)
  | _, _ => none

/-! ### Field frames (R50, R51, Table 11.3) -/

/-- The rest of a FILL entry after its measured time: resolution, raw reading, battery code (R51(e)). -/
def parseFillReport : List Byte → Option (Report × List Byte)
  | res :: hi :: lo :: bat :: rest =>
    if validReading ⟨res.toNat, (be16 hi lo).toNat⟩ && bat.toNat ≤ 15 then
      some (.fill ⟨res.toNat, (be16 hi lo).toNat⟩ bat.toNat, rest)
    else none
  | _ => none

/-- A residual's resolution and raw reading (R51(f)). -/
def parseResidual (truck : Word16) : List Byte → Option (Report × List Byte)
  | res :: hi :: lo :: rest =>
    if validReading ⟨res.toNat, (be16 hi lo).toNat⟩ then
      some (.emptied truck (some ⟨res.toNat, (be16 hi lo).toNat⟩), rest)
    else none
  | _ => none

/-- The rest of an EMPTIED entry after its measured time: truck unit, residual present flag and, with the flag 1, the residual (R51(f)). -/
def parseEmptiedReport : List Byte → Option (Report × List Byte)
  | hi :: lo :: flag :: rest =>
    match flagOf flag with
    | some false => some (.emptied (be16 hi lo) none, rest)
    | some true => parseResidual (be16 hi lo) rest
    | none => none
  | _ => none

/-- The rest of a FAULT entry after its measured time: fault code 1 to 15, battery code (R51(g)). -/
def parseFaultReport : List Byte → Option (Report × List Byte)
  | code :: bat :: rest =>
    if 1 ≤ code.toNat && code.toNat ≤ 15 && bat.toNat ≤ 15 then some (.fault code.toNat bat.toNat, rest) else none
  | _ => none

/-- The rest of an entry after its measured time, by its kind code (Table 11.3); another code names no kind (R51(b)). -/
def parseReport (kind : Byte) (rest : List Byte) : Option (Report × List Byte) :=
  match kind.toNat with
  | 1 => parseFillReport rest
  | 2 => parseEmptiedReport rest
  | 3 => parseFaultReport rest
  | _ => none

/-- One entry and the bytes that follow it (R50, R51(d)). -/
def parseEntry (conc : Word16) : List Byte → Option (Entry × List Byte)
  | kind :: b0 :: b1 :: b2 :: b3 :: t0 :: t1 :: t2 :: t3 :: rest =>
    if validBin (be32 b0 b1 b2 b3) then
      (parseReport kind rest).map (fun p =>
        ({ bin := be32 b0 b1 b2 b3, time := be32 t0 t1 t2 t3, report := p.1, concentrator := conc }, p.2))
    else none
  | _ => none

/-- The entries of a well-formed body after its header: exactly `n` entries that end at the last byte (R51(b), R51(c)). -/
def parseEntries (conc : Word16) : Nat → List Byte → Option (List Entry)
  | 0, rest => if rest.isEmpty then some [] else none
  | n + 1, bytes =>
    match parseEntry conc bytes with
    | some (e, rest) => (parseEntries conc n rest).map (fun es => e :: es)
    | none => none

/-- The entries of a field frame's body when it is well formed (R51): concentrator number, frame number, entry count 1 to 16, entries. -/
def decodeFieldBody : List Byte → Option (List Entry)
  | hi :: lo :: _ :: count :: rest =>
    if 1 ≤ count.toNat && count.toNat ≤ 16 then parseEntries (be16 hi lo) count.toNat rest else none
  | _ => none

/-- The frame number byte as received (R53). -/
def frameNumberOf (body : List Byte) : Byte := body.getD 2 0

/-! ### Request bodies (R196, Table 11.6) -/

/-- REGISTER's operands (R15(a)). -/
structure RegisterReq where
  bin : BinNumber
  kind : BinKind
  zone : ZoneNo
  profile : ProfileNo
  deriving DecidableEq, Repr

def parseRegister : List Byte → Option RegisterReq
  | [a, b, c, d, k, z, p] =>
    match binKindOf k, zoneOf z, profileOf p with
    | some kind, some zone, some profile => if validBin (be32 a b c d) then some ⟨be32 a b c d, kind, zone, profile⟩ else none
    | _, _, _ => none
  | _ => none

/-- AMEND's operands (R17(a)): a field whose presence bit is clear is not examined. -/
structure AmendReq where
  bin : BinNumber
  kind : Option BinKind
  zone : Option ZoneNo
  profile : Option ProfileNo
  deriving DecidableEq, Repr

/-- An optional field: absent when not present; when present it must be in range. -/
def optionalField {α : Type} (present : Bool) (v : Option α) : Option (Option α) :=
  if present then v.map some else some none

def parseAmend : List Byte → Option AmendReq
  | [a, b, c, d, pres, k, z, p] =>
    match optionalField (pres.getLsbD 0) (binKindOf k), optionalField (pres.getLsbD 1) (zoneOf z),
      optionalField (pres.getLsbD 2) (profileOf p) with
    | some kind, some zone, some profile =>
      if validBin (be32 a b c d) && (pres.getLsbD 0 || pres.getLsbD 1 || pres.getLsbD 2) then
        some ⟨be32 a b c d, kind, zone, profile⟩
      else none
    | _, _, _ => none
  | _ => none

/-- RETIRE's operands (R20(a)): the bin number and the FORCE flag. -/
def parseRetire : List Byte → Option (BinNumber × Bool)
  | [a, b, c, d, f] =>
    match flagOf f with
    | some force => if validBin (be32 a b c d) then some (be32 a b c d, force) else none
    | none => none
  | _ => none

/-- LOOKUP's operand (R23). -/
def parseLookup : List Byte → Option BinNumber
  | [a, b, c, d] => if validBin (be32 a b c d) then some (be32 a b c d) else none
  | _ => none

/-- STAGE PROFILE's operands, with the checks of R71(a): the number, the class and the two references. -/
def parseStageProfile : List Byte → Option (ProfileNo × Profile)
  | [p, cls, e1, e0, f1, f0, j, w1, w0, d, s1, s0, l] =>
    match profileOf p, classOf cls with
    | some no, some c =>
      if (be16 e1 e0).toNat ≤ 4095 && (be16 f1 f0).toNat ≤ 4095 then
        some (no, { cls := c, emptyRef := (be16 e1 e0).toNat, fullRef := (be16 f1 f0).toNat, jump := j.toNat,
                    window := (be16 w1 w0).toNat, drop := d.toNat, silence := (be16 s1 s0).toNat, lowBattery := l.toNat })
      else none
    | _, _ => none
  | _ => none

/-- The one profile number of READ PROFILE (R73). -/
def parseProfileNo : List Byte → Option ProfileNo
  | [p] => profileOf p
  | _ => none

/-- The one zone number of APPLY ZONE, ZONE SUMMARY, WATCH and UNWATCH. -/
def parseZoneNo : List Byte → Option ZoneNo
  | [z] => zoneOf z
  | _ => none

/-- STAGE ZONE's operands (R103(a)): the pair is carried as received. -/
def parseStageZone : List Byte → Option (ZoneNo × Thresholds)
  | [z, c, u] => (zoneOf z).map (fun no => (no, ⟨c.toNat, u.toNat⟩))
  | _ => none

/-- SET ZONE ATTRIBUTES's operands (R107). -/
def parseZoneAttributes : List Byte → Option (ZoneNo × Bool × Bool)
  | [z, l, m] =>
    match zoneOf z, flagOf l, flagOf m with
    | some no, some lock, some mute => some (no, lock, mute)
    | _, _, _ => none
  | _ => none

/-- CLAIM's operands (Table 11.7). -/
structure ClaimReq where
  tag : Word16
  hold : Nat
  bins : List BinNumber
  deriving DecidableEq, Repr

/-- CLAIM's operands with the checks of R116(b). -/
def parseClaim : List Byte → Option ClaimReq
  | t1 :: t0 :: h1 :: h0 :: n :: rest =>
    match binList n.toNat rest with
    | some bins =>
      if 1 ≤ (be16 h1 h0).toNat && (be16 h1 h0).toNat ≤ 1440 && 1 ≤ n.toNat && n.toNat ≤ 32 && bins.all validBin then
        some ⟨be16 t1 t0, (be16 h1 h0).toNat, bins⟩
      else none
    | none => none
  | _ => none

/-- EXTEND's operands (R122): route index, route tag and minutes from 1 to 1,440. -/
def parseExtend : List Byte → Option (RouteIdx × Word16 × Nat)
  | [r, t1, t0, m1, m0] =>
    match routeOf r with
    | some i => if 1 ≤ (be16 m1 m0).toNat && (be16 m1 m0).toNat ≤ 1440 then some (i, be16 t1 t0, (be16 m1 m0).toNat) else none
    | none => none
  | _ => none

/-- RELEASE's operands (R123): a list count 0 carries no bin list. -/
def parseRelease : List Byte → Option (RouteIdx × Word16 × Option (List BinNumber))
  | r :: t1 :: t0 :: n :: rest =>
    match routeOf r, binList n.toNat rest with
    | some i, some bins =>
      if n.toNat ≤ 32 && bins.all validBin then
        some (i, be16 t1 t0, if n.toNat = 0 then none else some bins)
      else none
    | _, _ => none
  | _ => none

/-- CONFIRM's operands (R126). -/
structure ConfirmReq where
  route : RouteIdx
  tag : Word16
  bin : BinNumber
  time : Minute
  residual : Option RawReading
  deriving DecidableEq, Repr

/-- What follows CONFIRM's residual present flag: nothing with the flag 0, a residual with the flag 1 (Table 11.6). -/
def confirmResidual (present : Bool) : List Byte → Option (Option RawReading)
  | [] => if present then none else some none
  | [res, hi, lo] =>
    if present && validReading ⟨res.toNat, (be16 hi lo).toNat⟩ then some (some ⟨res.toNat, (be16 hi lo).toNat⟩) else none
  | _ => none

/-- CONFIRM's operands with the checks of R126(a). -/
def parseConfirm : List Byte → Option ConfirmReq
  | r :: t1 :: t0 :: a :: b :: c :: d :: m3 :: m2 :: m1 :: m0 :: flag :: rest =>
    match routeOf r, flagOf flag with
    | some i, some present =>
      match confirmResidual present rest with
      | some residual =>
        if validBin (be32 a b c d) then some ⟨i, be16 t1 t0, be32 a b c d, be32 m3 m2 m1 m0, residual⟩ else none
      | none => none
    | _, _ => none
  | _ => none

/-- ROUTE STATUS's operand (R125). -/
def parseRouteStatus : List Byte → Option RouteIdx
  | [r] => routeOf r
  | _ => none

/-- EXPORT's operands (R154(b)): a zone and a maximum from 1 to 512. -/
def parseZoneExport : List Byte → Option (ZoneNo × Nat)
  | [z, m1, m0] =>
    match zoneOf z with
    | some no => if 1 ≤ (be16 m1 m0).toNat && (be16 m1 m0).toNat ≤ 512 then some (no, (be16 m1 m0).toNat) else none
    | none => none
  | _ => none

/-- The count of FETCH (1 to 16, R159) or of TAKE NOTICES (1 to 8, R172). -/
def parseCount (most : Nat) : List Byte → Option Nat
  | [n] => if 1 ≤ n.toNat && n.toNat ≤ most then some n.toNat else none
  | _ => none

/-- SET NOTICE MASK's operand (R174). -/
def parseMask : List Byte → Option Word16
  | [hi, lo] => some (be16 hi lo)
  | _ => none

/-- CHANNEL RESET's operand (R177): a target from 0 to 7. -/
def parseTarget : List Byte → Option Channel
  | [c] => channelOf c
  | _ => none

/-- Whether a CHANNEL RESET body names a channel other than `ch` (R168(b)); a body that is not one byte names none (log entry 11). -/
def namesOther (ch : Channel) : List Byte → Bool
  | [c] => c.toNat ≠ ch.val
  | _ => false

/-- The empty body of APPLY PROFILES, ABORT EXPORT, START, TABLE RESET and STATUS (Table 11.6). -/
def parseEmpty : List Byte → Option Unit
  | [] => some ()
  | _ => none

/-- SET CLOCK's operand (R190). -/
def parseMinute : List Byte → Option Minute
  | [a, b, c, d] => some (be32 a b c d)
  | _ => none

/-- SET PARAMETERS's operands with their ranges (R186). -/
def parseParams : List Byte → Option Params
  | [a, i, g] =>
    if (a.toNat = 1 || a.toNat = 5 || a.toNat = 15 || a.toNat = 60) && 1 ≤ i.toNat && i.toNat ≤ 60 && 1 ≤ g.toNat then
      some ⟨a.toNat, i.toNat, g.toNat⟩
    else none
  | _ => none

/-! ### Frames sent (Tables 11.4 and 11.5) -/

/-- The seven bytes of a frame reply (Table 11.4): the CRC covers the three bytes between the marker and it (R195). -/
def frameReplyBytes (r : FrameReply) : List Byte :=
  let covered := [r.frame, BitVec.ofNat 8 (frameStatusCode r.status), BitVec.ofNat 8 r.freePlaces]
  [0xD3#8, 0x93#8] ++ covered ++ crcBytes (crc16 covered)

/-- The bytes of a response frame (Table 11.5): the length is the body's plus 5. -/
def responseBytes (r : Response) : List Byte :=
  let covered := byte2 (r.body.length + 5) ++ [r.channel] ++ byte2 r.tag.toNat ++ [r.kind, respCodeByte r.code] ++ r.body
  [0xD3#8, 0x94#8] ++ covered ++ crcBytes (crc16 covered)

/-! ### Records sent (R197, Tables 11.8 to 11.11) -/

/-- A byte of flags, bit 0 first. -/
def flagsByte (bits : List Bool) : List Byte :=
  byte1 ((bits.zipIdx.map (fun p => if p.1 then 2 ^ p.2 else 0)).sum)

/-- Two bytes of flags, bit 0 first. -/
def flagsWord (bits : List Bool) : List Byte :=
  byte2 ((bits.zipIdx.map (fun p => if p.1 then 2 ^ p.2 else 0)).sum)

/-- An absent field is sent as zero bytes (R197). -/
def orZero {α : Type} (f : α → Nat) : Option α → Nat
  | none => 0
  | some a => f a

/-- The source byte and the unit or channel of "last emptied by" (Table 11.10). -/
def emptiedByBytes : Option EmptiedBy → List Byte
  | none => byte1 0 ++ byte2 0
  | some (.truck u) => byte1 1 ++ byte2 u.toNat
  | some (.channel c) => byte1 2 ++ byte2 c.val

/-- The record view (Table 1.6, Table 11.10), 45 bytes. -/
def recordView (slot : Nat) (r : BinRecord) : List Byte :=
  byte4 r.key.bin.toNat ++ byte2 slot ++ byte1 (binKindCode r.key.kind) ++ byte1 r.key.zone.val ++ byte1 r.key.profile.val
    ++ byte1 (recStateCode r.key.state) ++ byte4 r.key.registered.toNat
    ++ flagsByte [r.key.ready, r.key.urgent, r.reading.batteryLow]
    ++ flagsWord [r.key.claim.isSome, r.reading.fill.isSome, r.reading.lastRaw.isSome, r.reading.emptiedTime.isSome,
        r.reading.emptiedBy.isSome, r.reading.reportTime.isSome, r.reading.battery.isSome, r.reading.pending.isSome,
        r.reading.faultCode.isSome]
    ++ byte1 (orZero Fin.val r.key.claim)
    ++ byte1 (orZero FillReading.percent r.reading.fill) ++ byte4 (orZero (fun f => f.time.toNat) r.reading.fill)
    ++ byte2 (orZero id r.reading.lastRaw) ++ byte4 (orZero BitVec.toNat r.reading.emptiedTime)
    ++ emptiedByBytes r.reading.emptiedBy ++ byte4 (orZero BitVec.toNat r.reading.reportTime)
    ++ byte1 (orZero id r.reading.battery)
    ++ byte1 (orZero PendingReading.percent r.reading.pending) ++ byte2 (orZero PendingReading.raw r.reading.pending)
    ++ byte4 (orZero (fun p => p.time.toNat) r.reading.pending) ++ byte1 (orZero id r.reading.faultCode)

/-- The export row of a record (R156). -/
def exportRowOf (slot : Nat) (r : BinRecord) : ExportRow :=
  { bin := r.key.bin, slot := slot, zone := r.key.zone, kind := r.key.kind, state := r.key.state, fill := r.reading.fill,
    urgent := r.key.urgent, batteryLow := r.reading.batteryLow }

/-- An export row as sent (Table 11.10), 15 bytes. -/
def exportRowBytes (r : ExportRow) : List Byte :=
  byte4 r.bin.toNat ++ byte2 r.slot ++ byte1 r.zone.val ++ byte1 (binKindCode r.kind) ++ byte1 (recStateCode r.state)
    ++ flagsByte [r.fill.isSome, r.urgent, r.batteryLow]
    ++ byte1 (orZero FillReading.percent r.fill) ++ byte4 (orZero (fun f => f.time.toNat) r.fill)

/-- A profile copy as sent (Table 11.9), 12 bytes. -/
def profileBytes (p : Profile) : List Byte :=
  byte1 (classCode p.cls) ++ byte2 p.emptyRef ++ byte2 p.fullRef ++ byte1 p.jump ++ byte2 p.window ++ byte1 p.drop
    ++ byte2 p.silence ++ byte1 p.lowBattery

/-- Why a position of a CLAIM fails (Table 6.5), with the holder for CLAIMED. -/
inductive RefusalReason where
  | repeated
  | unknown
  | poisoned
  | claimed (route : RouteIdx) (owner : Channel)
  | zoneLocked
  deriving DecidableEq, Repr

/-- A refusal entry (R117). -/
structure RefusalEntry where
  position : Nat
  bin : BinNumber
  reason : RefusalReason
  deriving DecidableEq, Repr

/-- A refusal entry as sent (Table 11.11), 8 bytes; the holder's two bytes are 0xFF for every reason but CLAIMED (R197). -/
def refusalBytes (e : RefusalEntry) : List Byte :=
  byte1 e.position ++ byte4 e.bin.toNat ++
    match e.reason with
    | .repeated => [1#8, 0xFF#8, 0xFF#8]
    | .unknown => [2#8, 0xFF#8, 0xFF#8]
    | .poisoned => [3#8, 0xFF#8, 0xFF#8]
    | .claimed r o => [4#8] ++ byte1 r.val ++ byte1 o.val
    | .zoneLocked => [5#8, 0xFF#8, 0xFF#8]

/-- The six value bytes of a notice entry (section 11.4). -/
def noticeValueBytes : Option NoticeValue → List Byte
  | none => [0#8, 0#8, 0#8, 0#8, 0#8, 0#8]
  | some (.fill p) => byte1 p ++ [0#8, 0#8, 0#8, 0#8, 0#8]
  | some (.concentrator c) => byte2 c.toNat ++ [0#8, 0#8, 0#8, 0#8]
  | some (.routeEnd tag st d r l) => byte2 tag.toNat ++ byte1 (endStatusCode st) ++ byte1 d ++ byte1 r ++ byte1 l
  | some (.rowsFreed n) => byte2 n ++ [0#8, 0#8, 0#8, 0#8]

/-- A notice entry as sent (Table 11.11), 18 bytes. -/
def noticeBytes (n : Notice) : List Byte :=
  byte1 (noticeCode n.kind) ++ flagsByte [n.zone.isSome, n.bin.isSome, n.route.isSome, n.value.isSome]
    ++ byte1 (orZero Fin.val n.zone) ++ byte1 (orZero Fin.val n.route) ++ byte4 (orZero BitVec.toNat n.bin)
    ++ byte4 n.minute.toNat ++ noticeValueBytes n.value

/-- A member as ROUTE STATUS sends it (Table 11.8), 11 bytes. -/
def memberBytes (m : Member) : List Byte :=
  byte4 m.bin.toNat ++ byte2 m.slot ++ byte1 (memberStateCode m.state) ++
    match m.state with
    | .done t => byte4 t.toNat
    | .pending | .released | .lost => byte4 0

/-- The body of ROUTE STATUS OK (R125, Table 11.8). -/
def routeStatusBytes (i : RouteIdx) (r : Route) : List Byte :=
  byte1 i.val ++ byte2 r.tag.toNat ++ byte4 r.created.toNat ++ byte4 r.deadline.toNat ++ byte1 r.members.length
    ++ r.members.flatMap memberBytes

/-- A refusal at a claimed record: its route index and the route's owner (Table 11.8). -/
def claimedBytes (i : RouteIdx) (owner : Channel) : List Byte := byte1 i.val ++ byte1 owner.val

end Sys2Proof.Machine
end

