-- ==== Sys2Proof/Machine/Ops.lean ====
section
/-! DEFINITION. The shared operations: tables and sparse lists, counters, responses, the Notice Unit, the Store Arbiter with the end of a grant,
the Walker's starts and completions, and the comparisons that follow a minute advance. -/

namespace Sys2Proof.Machine

/-! ### Tables of a fixed number of places -/

/-- The place `i` of a table. -/
def vget {α : Type} {n : Nat} (v : Vector α n) (i : Fin n) : α := v.get i

/-- The table with place `i` replaced. -/
def vset {α : Type} {n : Nat} (v : Vector α n) (i : Fin n) (a : α) : Vector α n := v.set i.val a i.isLt

/-- The table with place `i` changed. -/
def vmod {α : Type} {n : Nat} (v : Vector α n) (i : Fin n) (f : α → α) : Vector α n := vset v i (f (vget v i))

/-- The table with every place changed. -/
def vmap {α β : Type} {n : Nat} (f : α → β) (v : Vector α n) : Vector β n :=
  ⟨(v.toList.map f).toArray, by simp⟩

/-- The numbers a set holds, in ascending order. -/
def members {n : Nat} (v : Vector Bool n) : List (Fin n) := (List.finRange n).filter (fun i => vget v i)

/-- The set with the numbers of a list added. -/
def addAll {n : Nat} (v : Vector Bool n) (l : List (Fin n)) : Vector Bool n := l.foldl (fun v i => vset v i true) v

/-! ### Sparse lists, in rising order of index -/

/-- What stands at index `k`. -/
def sfind {α : Type} (k : Nat) : List (Nat × α) → Option α
  | [] => none
  | (j, a) :: rest => if j = k then some a else sfind k rest

/-- The list with `a` at index `k`, in its place in the rising order. -/
def sput {α : Type} (k : Nat) (a : α) : List (Nat × α) → List (Nat × α)
  | [] => [(k, a)]
  | (j, b) :: rest => if k < j then (k, a) :: (j, b) :: rest else if j = k then (k, a) :: rest else (j, b) :: sput k a rest

/-- The list without index `k`. -/
def sdrop {α : Type} (k : Nat) : List (Nat × α) → List (Nat × α)
  | [] => []
  | (j, b) :: rest => if j = k then rest else (j, b) :: sdrop k rest

/-- The lowest index from `k` on that a rising list does not hold. -/
def lowestFree {α : Type} (k : Nat) : List (Nat × α) → Nat
  | [] => k
  | (j, _) :: rest => if j = k then lowestFree (k + 1) rest else k

/-! ### Counters (R188) -/

/-- The place of a counter in Table 10.4. -/
def counterIndex : Counter → Fin 24
  | .framesAccepted => 0
  | .framesCrcError => 1
  | .framesNotRunning => 2
  | .framesFormat => 3
  | .framesFull => 4
  | .framesAbandoned => 5
  | .repliesDiscarded => 6
  | .entriesApplied => 7
  | .entriesHeld => 8
  | .entriesStale => 9
  | .entriesFuture => 10
  | .entriesUnknown => 11
  | .entriesPoisonedBin => 12
  | .requestsLength => 13
  | .requestsAbandoned => 14
  | .markersIgnored => 15
  | .linkErrors => 16
  | .badChannels => 17
  | .channelFulls => 18
  | .noticesDropped => 19
  | .corrected => 20
  | .poisonedRecords => 21
  | .uncorrectable => 22
  | .uncorrectableHalted => 23

/-- A 32-bit count rises by one and stays at its greatest value (R188). -/
def satInc (c : Word32) : Word32 := if c = 0xFFFFFFFF#32 then c else c + 1#32

/-- The counters with one of them raised (R188). -/
def bumpIn (c : Counter) (t : Vector Word32 24) : Vector Word32 24 := vmod t (counterIndex c) satInc

/-- The device with one counter raised (R188). -/
def State.bump (c : Counter) (s : State) : State :=
  { s with control := { s.control with counters := bumpIn c s.control.counters } }

/-- The value of a counter. -/
def State.count (c : Counter) (s : State) : Word32 := vget s.control.counters (counterIndex c)

/-! ### Channels, responses and replies -/

/-- One channel. -/
def State.chan (s : State) (ch : Channel) : ChannelState := vget s.channels ch

/-- The device with one channel changed. -/
def State.modChan (ch : Channel) (f : ChannelState → ChannelState) (s : State) : State :=
  { s with channels := vmod s.channels ch f }

/-- A response is handed to the planner transmitter (R165). -/
def State.respond (r : Response) (s : State) : State :=
  { s with plannerPort := { s.plannerPort with responses := s.plannerPort.responses ++ [r] } }

/-- The channel number of a channel, as a response carries it. -/
def channelByte (ch : Channel) : Byte := BitVec.ofNat 8 ch.val

/-- The response to an admitted request (R167). -/
def responseTo (ch : Channel) (rq : Request) (code : RespCode) (body : List Byte) : Response :=
  { channel := channelByte ch, tag := rq.tag, kind := rq.kind, code := code, body := body }

/-- The head of a channel queue is answered and leaves the queue (section 2.4, R34). -/
def State.answer (ch : Channel) (rq : Request) (code : RespCode) (body : List Byte) (s : State) : State :=
  (s.modChan ch (fun c => { c with queue := c.queue.tail })).respond (responseTo ch rq code body)

/-- A request removed by a reset is answered PURGED (R37). -/
def State.purgeList (ch : Channel) (rqs : List Request) (s : State) : State :=
  rqs.foldl (fun s rq => s.respond (responseTo ch rq .purged [])) s

/-- Q of R165: the requests held in the eight channel queues together, heads included. -/
def State.queuedRequests (s : State) : Nat := ((List.finRange 8).map (fun ch => (s.chan ch).queue.length)).sum

/-- W + Q of R165. -/
def State.outstanding (s : State) : Nat := s.plannerPort.responses.length + s.queuedRequests

/-- The free places of the Update Queue (R36). -/
def State.freePlaces (s : State) : Nat := Config.updateQueuePlaces - s.updateQueue.length

/-- A frame reply is handed to the field transmitter; when its queue holds four it is discarded and counted (R53). -/
def State.reply (frame : Byte) (status : FrameStatus) (s : State) : State :=
  if s.fieldPort.replies.length < Config.replyPlaces then
    { s with fieldPort := { s.fieldPort with
        replies := s.fieldPort.replies ++ [{ frame := frame, status := status, freePlaces := s.freePlaces }] } }
  else s.bump .repliesDiscarded

/-! ### Notices (R169 to R173) -/

/-- The key of a notice (Table 9.3). The channel that keys an EXPORT_ABANDONED is that of the queue that holds it. -/
inductive NoticeKey where
  | bin (b : Option BinNumber)
  | route (i : Option RouteIdx)
  | zone (z : Option ZoneNo)
  | ownChannel
  | absent
  deriving DecidableEq, Repr

def noticeKey (n : Notice) : NoticeKey :=
  match n.kind with
  | .ready | .urgent | .withdrawn | .silent | .faulted | .batteryLow | .unplannedEmpty | .poisoned | .stray | .memberDone
  | .memberLost => .bin n.bin
  | .routeEnded => .route n.route
  | .exportAbandoned => .ownChannel
  | .rescanDone => .zone n.zone
  | .recalDone | .deviceHalted => .absent

/-- Two entries with the same kind and the same key are the same notice for merging (R169). -/
def sameNotice (a b : Notice) : Bool := a.kind == b.kind && noticeKey a == noticeKey b

/-- The queued entry takes the content of the copy and keeps its place (R171(c)). -/
def mergeNotice (n e : Notice) : Notice :=
  if sameNotice e n then { e with minute := n.minute, value := n.value, zone := n.zone, route := n.route } else e

/-- A copy offered to a channel: the channel after it, and whether the copy was dropped (R171). -/
def offerTo (n : Notice) (c : ChannelState) : ChannelState × Bool :=
  if !c.mask.getLsbD (noticeCode n.kind) then (c, false)
  else if c.overflow then (c, true)
  else if c.notices.any (fun e => sameNotice e n) then ({ c with notices := c.notices.map (mergeNotice n) }, false)
  else if c.notices.length < Config.noticePlaces then ({ c with notices := c.notices ++ [n], attn := true }, false)
  else ({ c with overflow := true }, true)

/-- A notice copy is offered to one channel's queue; a dropped one is counted (R171, R181). -/
def State.offer (ch : Channel) (n : Notice) (s : State) : State :=
  let s' := s.modChan ch (fun c => (offerTo n c).1)
  if (offerTo n (s.chan ch)).2 then s'.bump .noticesDropped else s'

/-- The notices of an operation are handed over in order (R30, R170). -/
def State.offerAll (out : List (Channel × Notice)) (s : State) : State := out.foldl (fun s p => s.offer p.1 p.2) s

/-- A notice queue emptied, its overflow flag cleared and its line deasserted; the mask is kept (R173, R178(e), R180(b)). -/
def emptyNotices (c : ChannelState) : ChannelState := { c with notices := [], overflow := false, attn := false }

/-- The channels of a zone's watcher set, ascending (R110). -/
def watchersOf (z : Zone) : List Channel := members z.watchers

/-- The zone's watchers, unless its notice mute is set (R109). -/
def unmutedWatchers (z : Zone) : List Channel := if z.noticeMute then [] else watchersOf z

/-- The zone's watchers and channel 0, each once, ascending (R170). -/
def watchersAndZero (z : Zone) : List Channel := (List.finRange 8).filter (fun c => c == 0 || vget z.watchers c)

/-- Channel 0, and the zone's watchers unless the notice mute is set (R109). -/
def unmutedAndZero (z : Zone) : List Channel := if z.noticeMute then [0] else watchersAndZero z

/-- One copy of a notice for each of the channels. -/
def copies (chs : List Channel) (n : Notice) : List (Channel × Notice) := chs.map (fun c => (c, n))

/-! ### The work of one granted operation -/

/-- What a granted operation works on: the Record Store, the users counts, the deadline copies, the condition and the counters, with the
active profiles and the clock read at the grant (R29); the notices it gives, in order; and whether it has halted the device. -/
structure Work where
  store : RecordStore
  users : Vector Nat 32
  deadlines : Vector (Option Minute) 64
  condition : Condition
  counters : Vector Word32 24
  active : Vector Profile 32
  clock : Minute
  out : List (Channel × Notice)
  halting : Bool
  deriving DecidableEq, Repr

/-- The work of an operation at its start. -/
def workOf (s : State) (g : Grant) : Work :=
  { store := s.store, users := s.profiles.users, deadlines := s.expiry.deadlines, condition := s.control.condition,
    counters := s.control.counters, active := s.profiles.active, clock := g.clock, out := [], halting := false }

/-- The device with the operation's changes made (R30: all at once, at its end). -/
def State.commit (w : Work) (s : State) : State :=
  { s with
    store := w.store
    profiles := { s.profiles with users := w.users }
    expiry := { s.expiry with deadlines := w.deadlines }
    control := { s.control with condition := w.condition, counters := w.counters } }

/-- One counter raised. -/
def Work.bump (c : Counter) (w : Work) : Work := { w with counters := bumpIn c w.counters }

/-- A notice given to channels. -/
def Work.give (chs : List Channel) (n : Notice) (w : Work) : Work := { w with out := w.out ++ copies chs n }

/-- The record in a slot. -/
def Work.record (w : Work) (slot : Nat) : Option BinRecord := sfind slot w.store.slots

/-- A zone. -/
def Work.zone (w : Work) (z : ZoneNo) : Zone := vget w.store.zones z

/-- The record in a slot written. -/
def Work.putRecord (slot : Nat) (r : BinRecord) (w : Work) : Work :=
  { w with store := { w.store with slots := sput slot r w.store.slots } }

/-- A zone changed. -/
def Work.modZone (z : ZoneNo) (f : Zone → Zone) (w : Work) : Work :=
  { w with store := { w.store with zones := vmod w.store.zones z f } }

/-- A zone's counters changed (R93). -/
def Work.modCounters (z : ZoneNo) (f : ZoneCounters → ZoneCounters) (w : Work) : Work :=
  w.modZone z (fun zn => { zn with counters := f zn.counters })

/-- A route entry. -/
def Work.route (w : Work) (i : RouteIdx) : Option Route := vget w.store.routes i

/-- A route entry written. -/
def Work.setRoute (i : RouteIdx) (r : Option Route) (w : Work) : Work :=
  { w with store := { w.store with routes := vset w.store.routes i r } }

/-- A deadline copy written (R132). -/
def Work.setDeadline (i : RouteIdx) (d : Option Minute) (w : Work) : Work := { w with deadlines := vset w.deadlines i d }

/-- The active profile a record names (R68). -/
def Work.profileFor (w : Work) (r : BinRecord) : Profile := vget w.active r.key.profile

/-- The value of a bin notice: the record's fill, when present (Table 9.3). -/
def fillValue (r : BinRecord) : Option NoticeValue := r.reading.fill.map (fun f => NoticeValue.fill f.percent)

/-- A notice about a bin, with the record's fill as it stands (R100, R114; log entry 10). -/
def binNotice (k : NoticeKind) (r : BinRecord) (clock : Minute) : Notice :=
  { kind := k, zone := some r.key.zone, route := none, bin := some r.key.bin, minute := clock, value := fillValue r }

/-- A notice about a bin that carries no value. -/
def bareBinNotice (k : NoticeKind) (r : BinRecord) (clock : Minute) : Notice := { binNotice k r clock with value := none }

/-! ### The Table Walker's jobs (R137 to R141, R146) -/

/-- Whether a record meets the condition of a job kind (Table 7.1). -/
def qualifies (k : JobKind) (r : BinRecord) : Bool :=
  match k with
  | .age => true
  | .recal ps => vget ps r.key.profile
  | .rescan zs => vget zs r.key.zone

/-- Whether a slot lies above a walk position (R138). -/
def above (position : Option Nat) (slot : Nat) : Bool :=
  match position with
  | none => true
  | some p => p < slot

/-- The lowest-numbered qualifying slot above the walk position (R142). -/
def slotAhead (slots : List (Nat × BinRecord)) (j : Job) : Option Nat :=
  (slots.find? (fun p => above j.position p.1 && qualifies j.kind p.2)).map Prod.fst

/-- The pending job that is started first: RECAL, otherwise RESCAN, otherwise AGE (R141). -/
def startPending (w : Walker) : Option Walker :=
  match w.pendingRecal with
  | some ps => some { w with running := some ⟨.recal ps, none⟩, pendingRecal := none }
  | none =>
    match w.pendingRescan with
    | some zs => some { w with running := some ⟨.rescan zs, none⟩, pendingRescan := none }
    | none => if w.pendingAge then some { w with running := some ⟨.age, none⟩, pendingAge := false } else none

/-- RESCAN_DONE for a zone (R146(b)). -/
def rescanDone (z : ZoneNo) (minute : Minute) : Notice :=
  { kind := .rescanDone, zone := some z, route := none, bin := none, minute := minute, value := none }

/-- RECAL_DONE (R146(a)). -/
def recalDone (minute : Minute) : Notice :=
  { kind := .recalDone, zone := none, route := none, bin := none, minute := minute, value := none }

/-- Whether a zone is in the pending RESCAN set. -/
def rescanPending (w : Walker) (z : ZoneNo) : Bool :=
  match w.pendingRescan with
  | some zs => vget zs z
  | none => false

/-- The rescan outstanding flags of a completed job's zones are cleared, but for zones pending again (R105, R146(b)). -/
def clearRescan (w : Walker) (zs : List ZoneNo) (zones : Vector Zone 64) : Vector Zone 64 :=
  zs.foldl (fun t z => vmod t z (fun zn => { zn with rescan := rescanPending w z })) zones

/-- The running job completes: its notices, its flags, and no running job (R146). -/
def completeJob (minute : Minute) (k : JobKind) (s : State) : State × List (Channel × Notice) :=
  let s' := { s with walker := { s.walker with running := none } }
  match k with
  | .age => (s', [])
  | .recal _ => (s', [((0 : Channel), recalDone minute)])
  | .rescan zs =>
    ({ s' with store := { s.store with zones := clearRescan s.walker (members zs) s.store.zones } },
      (members zs).flatMap (fun z => copies (watchersAndZero (vget s.store.zones z)) (rescanDone z minute)))

/-- The running job completes when no qualifying slot lies ahead, and an idle Walker starts its next pending job, until a job runs with a
slot ahead or none is pending (R141, R146). Four jobs at most are completed and three started, so `fuel` 8 reaches the end. -/
def walkerRun (minute : Minute) : Nat → State → State × List (Channel × Notice)
  | 0, s => (s, [])
  | fuel + 1, s =>
    match s.walker.running with
    | some j =>
      if (slotAhead s.store.slots j).isSome then (s, [])
      else
        let c := completeJob minute j.kind s
        let r := walkerRun minute fuel c.1
        (r.1, c.2 ++ r.2)
    | none =>
      match startPending s.walker with
      | some w => walkerRun minute fuel { s with walker := w }
      | none => (s, [])

/-- The fuel of walkerRun. -/
def walkerFuel : Nat := 8

/-- Zones handed to the Walker join the pending RESCAN set (R139). -/
def Walker.addRescan (z : ZoneNo) (w : Walker) : Walker :=
  { w with pendingRescan := some (vset (w.pendingRescan.getD (Vector.replicate 64 false)) z true) }

/-- Profiles handed to the Walker join the pending RECAL set (R139). -/
def Walker.addRecal (ps : List ProfileNo) (w : Walker) : Walker :=
  { w with pendingRecal := some (addAll (w.pendingRecal.getD (Vector.replicate 32 false)) ps) }

/-! ### The Store Arbiter (R25 to R27) -/

/-- The position of a channel (Table 2.1). -/
def posOf (ch : Channel) : ArbPos := ⟨ch.val + 1, by omega⟩

/-- Whether the head of a channel queue is a store request (Table 2.2). -/
def headWaits (c : ChannelState) : Bool :=
  match c.queue with
  | [] => false
  | rq :: _ =>
    match requestKindOf rq.kind with
    | some k => isStoreKind k
    | none => false

/-- The waiting condition of each position (R26, Table 2.2). -/
def State.waits (s : State) (p : ArbPos) : Bool :=
  if h0 : p.val = 0 then s.control.condition == .running && !s.updateQueue.isEmpty
  else if h8 : p.val ≤ 8 then headWaits (s.chan ⟨p.val - 1, by omega⟩)
  else if p.val = 9 then
    match s.walker.running with
    | some j => (slotAhead s.store.slots j).isSome
    | none => false
  else s.control.condition != .halted && !s.expiry.dueList.isEmpty

/-- The positions in the order in which they are looked at: the pointer's first, position 10 followed by position 0 (R27). -/
def lookOrder (pointer : ArbPos) : List ArbPos := (List.finRange 11).map (fun i => pointer + i)

/-- A grant to a position, with what is read at a grant: the minute clock, the free row count and the staged thresholds (R29, R111, R154). -/
def State.grantTo (s : State) (p : ArbPos) : Grant :=
  { pos := p, clock := s.clock.minute, freeRows := s.exportUnit.freeRows, staged := vmap Zone.staged s.store.zones }

/-- The arbiter's look: an IDLE store is granted to the first waiting requester, which reads the clock, and the pointer moves past it (R27, R29). -/
def State.look (s : State) : State :=
  match s.arbiter.store with
  | .granted _ => s
  | .idle =>
    match (lookOrder s.arbiter.pointer).find? s.waits with
    | none => s
    | some p =>
      { s with arbiter := { pointer := p + 1, store := .granted (s.grantTo p) } }

/-- The grant in progress to a position, if it is the one in progress. -/
def State.grantAt (s : State) (p : ArbPos) : Option Grant :=
  match s.arbiter.store with
  | .granted g => if g.pos = p then some g else none
  | .idle => none

/-! ### Entry to HALTED and the end of a grant -/

/-- Entry to HALTED (R31, R40, R151, R193): the walk jobs and the due list are dropped, and HALT is asserted. -/
def State.enterHalted (s : State) : State :=
  { s with
    walker := { s.walker with running := none, pendingRecal := none, pendingRescan := none, pendingAge := false, ageHanded := false }
    expiry := { s.expiry with dueList := [], handedRoutes := none, handedExports := none }
    control := { s.control with condition := .halted, haltLine := true } }

/-- DEVICE_HALTED for every channel (R180(d)). -/
def deviceHalted (minute : Minute) : List (Channel × Notice) :=
  copies (List.finRange 8) { kind := .deviceHalted, zone := none, route := none, bin := none, minute := minute, value := none }

/-- The end of a granted operation (R29, R30, R146, R193): the Walker's completion and starts or the entry to HALTED, the notices handed over
in order, the store IDLE, and the arbiter's next look. -/
def endGrant (g : Grant) (halting : Bool) (out : List (Channel × Notice)) (s : State) : State :=
  let r := if halting then (s.enterHalted, deviceHalted g.clock) else walkerRun g.clock walkerFuel s
  let s' := r.1.offerAll (out ++ r.2)
  State.look { s' with arbiter := { s'.arbiter with store := .idle } }

/-! ### Comparisons after a minute advance (R133, R140, R161, R189) -/

/-- An item is added at the end of the due list unless an item already names it (R133, R161). -/
def addDue (l : List DueItem) (i : DueItem) : List DueItem := if l.contains i then l else l ++ [i]

/-- The routes whose deadline copy is at or below the clock, in ascending index (R133). -/
def dueRoutes (v : Minute) (deadlines : Vector (Option Minute) 64) : List RouteIdx :=
  (List.finRange 64).filter (fun i =>
    match vget deadlines i with
    | some d => d.toNat ≤ v.toNat
    | none => false)

/-- Whether an export place is OPEN and its export idle at clock value `v` (R161); the difference is taken exactly. -/
def exportIdle (v : Minute) (limit : Nat) (place : Option OpenExport) : Bool :=
  match place with
  | some e => e.lastActivity.toNat + limit ≤ v.toNat
  | none => false

/-- The channels whose export is idle, ascending (R161). -/
def idleExports (v : Minute) (limit : Nat) (places : Vector (Option OpenExport) 8) : List Channel :=
  (List.finRange 8).filter (fun ch => exportIdle v limit (vget places ch))

/-- The comparison of the deadline copies with a clock value handed over (R133). -/
def State.compareRoutes (s : State) : State :=
  match s.expiry.handedRoutes with
  | none => s
  | some v =>
    { s with expiry := { s.expiry with
        dueList := ((dueRoutes v s.expiry.deadlines).map DueItem.route).foldl addDue s.expiry.dueList, handedRoutes := none } }

/-- The comparison of the open exports with a clock value handed over; its items follow the route items of the same advance (R161). -/
def State.compareExports (s : State) : State :=
  match s.expiry.handedExports with
  | none => s
  | some v =>
    { s with expiry := { s.expiry with
        dueList := ((idleExports v s.control.params.idleLimit s.exportUnit.places).map DueItem.zoneExport).foldl addDue s.expiry.dueList,
        handedExports := none } }

/-- The age count reaches the age interval: it becomes 0 and an AGE job is pending (R140). -/
def State.raiseAgeJob (s : State) : State :=
  { s with walker := { s.walker with ageCount := 0, pendingAge := true } }

/-- An idle Walker starts its next pending job outside a grant (R141). -/
def State.startWalker (s : State) : State :=
  let r := walkerRun s.clock.minute walkerFuel s
  r.1.offerAll r.2

/-- The comparison of the age count with the age interval, after a rise (R140). -/
def State.compareAge (s : State) : State :=
  if s.walker.ageHanded then
    let s' := { s with walker := { s.walker with ageHanded := false } }
    if s.control.condition == .running && s.control.params.ageInterval ≤ s.walker.ageCount then s'.raiseAgeJob.startWalker else s'
  else s

/-- Whether no comparison is outstanding. -/
def State.settled (s : State) : Bool :=
  s.expiry.handedRoutes.isNone && s.expiry.handedExports.isNone && !s.walker.ageHanded

/-- The three comparisons with a clock value handed over: routes, then exports, then the age count (R133, R161, R140). -/
def State.compareAll (s : State) : State := s.compareRoutes.compareExports.compareAge

/-- The comparisons still outstanding from a minute advance are made, as parts of that advance, before the next step (R133, R140, R161; log entry 4). -/
def State.settle (s : State) : State := if s.settled then s else s.compareAll.look

/-- The Clock Unit hands a clock value to the Expiry Unit, which compares while the device is not HALTED (R189). -/
def State.handClock (v : Minute) (s : State) : State :=
  if s.control.condition == .halted then s
  else { s with expiry := { s.expiry with handedRoutes := some v, handedExports := some v } }

/-- The age count rises in RUNNING (R140); it is compared before anything else, so counts above 60, the greatest interval, are held as 60. -/
def State.raiseAge (minutes : Nat) (s : State) : State :=
  if s.control.condition == .running then
    { s with walker := { s.walker with ageCount := min 60 (s.walker.ageCount + minutes), ageHanded := true } }
  else s

/-! ### Carrying out a command -/

/-- A command whose step comes about at once, whatever block it acts on: the outstanding comparisons, its effect, and the arbiter's look. -/
def takeEvent (f : State → State) (s : State) : State := (f s.settle).look

/-- What the execution of a request leaves: the device, the response code and body, the notices given, and whether it has halted the device. -/
structure OpResult where
  st : State
  code : RespCode
  body : List Byte
  out : List (Channel × Notice)
  halting : Bool

/-- A request refused with nothing changed. -/
def refuseWith (code : RespCode) (s : State) : OpResult := { st := s, code := code, body := [], out := [], halting := false }

/-- A request answered with no notice given. -/
def answerWith (code : RespCode) (body : List Byte) (s : State) : OpResult :=
  { st := s, code := code, body := body, out := [], halting := false }

/-- The end of a request's work on the Record Store: its changes stand; if it halted the device the response is HALTED with an empty body (R31). -/
def finishWork (s : State) (w : Work) (code : RespCode) (body : List Byte) : OpResult :=
  { st := s.commit w, code := if w.halting then .halted else code, body := if w.halting then [] else body, out := w.out, halting := w.halting }

/-- The common checks (R168): reserved kinds, then the device condition. The check (a) of an unknown kind is UNKNOWN_REQUEST_KIND's. -/
def commonRefusal (k : RequestKind) (ch : Channel) (body : List Byte) (c : Condition) : Option RespCode :=
  if ch ≠ 0 && (isReservedKind k || (k == .channelReset && namesOther ch body)) then some .notPermitted
  else if c == .halted && !runsHalted k then some .halted
  else none

/-- The execution of a request under its common checks. -/
def execChecked (k : RequestKind) (ch : Channel) (rq : Request) (f : State → OpResult) (s : State) : OpResult :=
  match commonRefusal k ch rq.body s.control.condition with
  | some code => refuseWith code s
  | none => f s

/-- The store request at the head of a channel queue when it is of kind `k` and its grant is in progress. -/
def grantedHead (k : RequestKind) (ch : Channel) (s : State) : Option (Request × Grant) :=
  match (s.chan ch).queue, s.grantAt (posOf ch) with
  | rq :: _, some g => if rq.kind = requestCode k then some (rq, g) else none
  | _, _ => none

/-- A store request is executed under its grant, answered, and the grant ends (R29, R32, R34). If no such grant is in progress the step does
not come about (log entry 1). -/
def runStore (k : RequestKind) (ch : Channel) (f : Request → Grant → State → OpResult) (s : State) : State :=
  match grantedHead k ch s.settle with
  | none => s.settle
  | some (rq, g) =>
    let r := execChecked k ch rq (f rq g) s.settle
    endGrant g r.halting r.out (r.st.answer ch rq r.code r.body)

/-- The channel-local request at the head of a channel queue when it is of kind `k`. -/
def localHead (k : RequestKind) (ch : Channel) (s : State) : Option Request :=
  match (s.chan ch).queue with
  | rq :: _ => if rq.kind = requestCode k then some rq else none
  | [] => none

/-- A channel-local request is executed when it is the head of its queue, and answered (R32, R34). -/
def runLocal (k : RequestKind) (ch : Channel) (f : Request → State → OpResult) (s : State) : State :=
  match localHead k ch s.settle with
  | none => s.settle
  | some rq =>
    let r := execChecked k ch rq (f rq) s.settle
    State.look (r.st.answer ch rq r.code r.body)

/-- The Update Queue's head under its grant is applied, leaves the queue, and the grant ends (R36). -/
def runEntry (isKind : Report → Bool) (f : Entry → Work → Work) (s : State) : State :=
  match s.settle.updateQueue, s.settle.grantAt 0 with
  | e :: rest, some g =>
    if isKind e.report then
      let w := f e (workOf s.settle g)
      endGrant g w.halting w.out { s.settle.commit w with updateQueue := rest }
    else s.settle
  | _, _ => s.settle

/-- The slot a visit takes under the Walker's grant (R142). -/
def visitSlot (isKind : JobKind → Bool) (s : State) : Option (Job × Nat × Grant) :=
  match s.walker.running, s.grantAt 9 with
  | some j, some g => if isKind j.kind then (slotAhead s.store.slots j).map (fun n => (j, n, g)) else none
  | _, _ => none

/-- A visit under the Walker's grant: the walk position becomes the slot visited, the visit is made, and the grant ends (R142). -/
def runVisit (isKind : JobKind → Bool) (f : Nat → Work → Work) (s : State) : State :=
  match visitSlot isKind s.settle with
  | none => s.settle
  | some (j, slot, g) =>
    let w := f slot (workOf s.settle g)
    endGrant g w.halting w.out
      { s.settle.commit w with walker := { s.settle.walker with running := some { j with position := some slot } } }

/-- The first item of the due list under the Expiry Unit's grant. -/
def dueHead (s : State) : Option (DueItem × List DueItem × Grant) :=
  match s.expiry.dueList, s.grantAt 10 with
  | i :: rest, some g => some (i, rest, g)
  | _, _ => none

end Sys2Proof.Machine
end

