-- ==== Sys2Proof/Machine/Control.lean ====
section
/-! DEFINITION. Power-on and the requests of Device Control and the Clock Unit (Chapter 10), and the request whose kind code names no kind (R32). -/

namespace Sys2Proof.Machine

/-! ### START (R183) -/

/-- The device moved to RUNNING; nothing else changes. -/
def State.started (s : State) : State := { s with control := { s.control with condition := .running } }

/-- START at its grant (R183). -/
def startOp (rq : Request) (_g : Grant) (s : State) : OpResult :=
  match parseEmpty rq.body with
  | none => refuseWith .badRequest s
  | some _ => if s.control.condition = .config then answerWith .ok [] s.started else refuseWith .notConfig s

/-! ### TABLE RESET (R184) -/

/-- A channel's queue purged whole, heads included (R38(a)). -/
def State.purgeChannel (s : State) (ch : Channel) : State :=
  State.purgeList ch (s.chan ch).queue (s.modChan ch (fun c => { c with queue := [] }))

/-- The channels other than channel 0, ascending. -/
def otherChannels : List Channel := [1, 2, 3, 4, 5, 6, 7]

/-- A zone whose list, counters and rescan outstanding flag are cleared; the rest of it is kept (R112(b)). -/
def clearZone (z : Zone) : Zone := { z with rescan := false, readyList := [], counters := ZoneCounters.zero }

/-- The Record Store emptied, with fresh codes (R24(b), R112(b), R136(b); log entry 7). -/
def RecordStore.cleared (st : RecordStore) : RecordStore := { RecordStore.reset with zones := vmap clearZone st.zones }

/-- The changes (b) to (i) of TABLE RESET (R184). -/
def State.tableCleared (s : State) : State :=
  { s with
    store := s.store.cleared
    profiles := { s.profiles with users := Vector.replicate 32 0 }
    expiry := Expiry.reset
    exportUnit := { freeRows := Config.poolRows, places := Vector.replicate 8 none }
    updateQueue := []
    walker := Walker.reset
    channels := vmap emptyNotices s.channels
    control := { s.control with condition := .config, haltLine := false } }

/-- TABLE RESET at its grant (R184). -/
def tableResetOp (rq : Request) (_g : Grant) (s : State) : OpResult :=
  match parseEmpty rq.body with
  | none => refuseWith .badRequest s
  | some _ => answerWith .ok [] (otherChannels.foldl State.purgeChannel s).tableCleared

/-! ### SET CLOCK (R190) -/

/-- The clock set and its divider cleared; a forward move is handed on and compared at once (R190(a), (c), (d)). -/
def State.setClock (v : Minute) (s : State) : State :=
  let s' := { s with clock := { minute := v, divider := 0 } }
  if s.clock.minute.toNat < v.toNat then ((s'.handClock v).raiseAge (v.toNat - s.clock.minute.toNat)).compareAll else s'

/-- SET CLOCK (R190): it acts at the end of its grant, so it compares with the clock as it then stands, not with the one read at the grant. -/
def setClockOp (rq : Request) (_g : Grant) (s : State) : OpResult :=
  match parseMinute rq.body with
  | none => refuseWith .badRequest s
  | some v =>
    if s.control.condition = .running && v.toNat < s.clock.minute.toNat then answerWith .backward (byte4 s.clock.minute.toNat) s
    else answerWith .ok (byte4 v.toNat) (s.setClock v)

/-! ### SET PARAMETERS and STATUS (R186, R187) -/

/-- The device with its parameters replaced. -/
def State.setParams (p : Params) (s : State) : State := { s with control := { s.control with params := p } }

/-- SET PARAMETERS (R186). -/
def setParametersOp (rq : Request) (s : State) : OpResult :=
  match parseParams rq.body with
  | none => refuseWith .badRequest s
  | some p => answerWith .ok [] (s.setParams p)

/-- Routes HELD (R113). -/
def routesHeld (routes : Vector (Option Route) 64) : Nat := (List.finRange 64).countP (fun i => (vget routes i).isSome)

/-- The status record before its counters (Table 10.3, Table 11.8). -/
def statusHead (s : State) : List Byte :=
  byte1 (conditionCode s.control.condition) ++ byte4 s.clock.minute.toNat ++ byte1 s.control.params.ageInterval
    ++ byte1 s.control.params.idleLimit ++ byte1 s.control.params.gapLimit ++ flagByte s.control.haltLine
    ++ byte2 s.store.slots.length ++ byte2 s.store.overflow.length ++ byte1 (routesHeld s.store.routes)
    ++ byte2 s.exportUnit.freeRows ++ byte1 s.updateQueue.length ++ byte1 (runningJobCode s.walker.running)
    ++ flagsByte [s.walker.pendingRecal.isSome, s.walker.pendingRescan.isSome, s.walker.pendingAge]

/-- The body of STATUS OK (R187): the status record and the 24 counters in table order. -/
def statusBytes (s : State) : List Byte :=
  statusHead s ++ (List.finRange 24).flatMap (fun i => byte4 (vget s.control.counters i).toNat)

/-- STATUS (R187): it changes nothing. -/
def statusOp (rq : Request) (s : State) : OpResult :=
  match parseEmpty rq.body with
  | none => refuseWith .badRequest s
  | some _ => answerWith .ok (statusBytes s) s

/-! ### A kind code that names no request kind (R32, R168(a)) -/

/-- The head of a channel queue when its kind code names no request kind. -/
def unknownHead (ch : Channel) (s : State) : Option Request :=
  match (s.chan ch).queue with
  | rq :: _ => if (requestKindOf rq.kind).isNone then some rq else none
  | [] => none

/-- It is answered BAD_REQUEST in every condition and on every channel, with nothing changed. -/
def runUnknown (ch : Channel) (s : State) : State :=
  match unknownHead ch s.settle with
  | none => s.settle
  | some rq => State.look (s.settle.answer ch rq .badRequest [])

/-- POWER_ON (R182, and R24, R41, R42, R53, R89, R112, R136, R137, R152, R163, R180, R186, R188, R189): every block takes its power-on state. The
commands that wait and the count of free values are the model's own and stay. -/
def execPowerOn (s : State) : Host.Outcome State Fault Refusal := .next { State.reset with pending := s.pending, freeCount := s.freeCount }

/-- START (R183). -/
def execStart (ch : Channel) (s : State) : Host.Outcome State Fault Refusal := .next (runStore .start ch startOp s)

/-- TABLE RESET (R184). -/
def execTableReset (ch : Channel) (s : State) : Host.Outcome State Fault Refusal := .next (runStore .tableReset ch tableResetOp s)

/-- SET CLOCK (R190). -/
def execSetClock (ch : Channel) (s : State) : Host.Outcome State Fault Refusal := .next (runStore .setClock ch setClockOp s)

/-- SET PARAMETERS (R186). -/
def execSetParameters (ch : Channel) (s : State) : Host.Outcome State Fault Refusal := .next (runLocal .setParameters ch setParametersOp s)

/-- STATUS (R187). -/
def execStatus (ch : Channel) (s : State) : Host.Outcome State Fault Refusal := .next (runLocal .status ch statusOp s)

/-- UNKNOWN_REQUEST_KIND (R32). -/
def execUnknownRequestKind (ch : Channel) (s : State) : Host.Outcome State Fault Refusal := .next (runUnknown ch s)

end Sys2Proof.Machine
end

