-- ==== Sys2Proof/Machine/Flags.lean ====
section
/-! DEFINITION. What is computed from a record: fill (R77, R78), the battery low flag (R60), and ready evaluation with its membership, urgent flag
and band (R94 to R101). -/

namespace Sys2Proof.Machine

/-! ### Fill (section 4.3) -/

/-- A profile copy is usable when its empty reference is greater than its full reference (R69). -/
def Profile.usable (p : Profile) : Bool := p.fullRef < p.emptyRef

/-- The normalised reading (R77). -/
def normalise (r : RawReading) : Nat := r.raw * 2 ^ (12 - r.resolution)

/-- The fill computation on a normalised reading (R78). -/
def computeFill (p : Profile) (r : Nat) : Nat :=
  if p.emptyRef ≤ r then 0
  else if r ≤ p.fullRef then 100
  else ((p.emptyRef - r) * 100 + (p.emptyRef - p.fullRef) / 2) / (p.emptyRef - p.fullRef)

/-- Whether a profile's class fits a bin kind (R15(d)). -/
def classFits (c : ProfileClass) (k : BinKind) : Bool :=
  match c, k with
  | .litter, .litter => true
  | .glass, .glassClear => true
  | .glass, .glassGreen => true
  | .glass, .glassBrown => true
  | .litter, .glassClear => false
  | .litter, .glassGreen => false
  | .litter, .glassBrown => false
  | .glass, .litter => false

/-! ### The spike filter (section 4.4) -/

/-- What the spike filter decides (R81). -/
inductive Decision where
  | apply
  | hold
  deriving DecidableEq, Repr

/-- The magnitude of a difference (Conventions (b)). -/
def magnitude (a b : Nat) : Nat := (a - b) + (b - a)

/-- Whether a held reading confirms a value measured at `t` (Table 4.5, case 3). -/
def confirms (p : Profile) (held : Option PendingReading) (v : Nat) (t : Minute) : Bool :=
  match held with
  | some h => t.toNat ≤ h.time.toNat + p.window && magnitude v h.percent ≤ p.jump
  | none => false

/-- The decision on a value `v` measured at `t` (Table 4.5): the first case that holds. -/
def spikeFilter (p : Profile) (r : ReadingGroup) (v : Nat) (t : Minute) : Decision :=
  match r.fill with
  | none => .apply
  | some c => if v ≤ c.percent + p.jump then .apply else if confirms p r.pending v t then .apply else .hold

/-- An applied fall in fill greater than the drop limit (R83). -/
def isDrop (p : Profile) (before : Option FillReading) (v : Nat) : Bool :=
  match before with
  | some c => v + p.drop < c.percent
  | none => false

/-! ### The battery low flag (R60) -/

/-- The battery low test: the battery code present and at or below the profile's low-battery level. -/
def batteryIsLow (p : Profile) (battery : Option Nat) : Bool :=
  match battery with
  | some b => b ≤ p.lowBattery
  | none => false

/-- The reading group with its battery low flag tested. -/
def testBattery (p : Profile) (r : ReadingGroup) : ReadingGroup := { r with batteryLow := batteryIsLow p r.battery }

/-! ### The urgency key (R94) -/

/-- The urgency key: fill, fill time and bin number. -/
structure UrgencyKey where
  fill : Nat
  time : Nat
  bin : Nat
  deriving DecidableEq, Repr

/-- The key of a record that has a fill. -/
def urgencyKey (r : BinRecord) : Option UrgencyKey :=
  r.reading.fill.map (fun f => { fill := f.percent, time := f.time.toNat, bin := r.key.bin.toNat })

/-- Key `a` comes before key `b`: greater fill, then earlier fill time, then lower bin number (R94). -/
def comesBefore (a b : UrgencyKey) : Bool :=
  b.fill < a.fill || (a.fill == b.fill && (a.time < b.time || (a.time == b.time && a.bin < b.bin)))

/-- Whether the record in slot `a` comes before the record in slot `b`. -/
def slotBefore (slots : List (Nat × BinRecord)) (a b : Nat) : Bool :=
  match (sfind a slots).bind urgencyKey, (sfind b slots).bind urgencyKey with
  | some x, some y => comesBefore x y
  | _, _ => false

/-- A slot placed after every member that comes before it and before the first member it comes before (R95). -/
def placeIn (slots : List (Nat × BinRecord)) (slot : Nat) : List Nat → List Nat
  | [] => [slot]
  | m :: rest => if slotBefore slots slot m then slot :: m :: rest else m :: placeIn slots slot rest

/-- A slot taken out of a list. -/
def takeOut (slot : Nat) (l : List Nat) : List Nat := l.filter (fun m => m != slot)

/-! ### Ready evaluation (R96 to R100) -/

/-- The ready test (R96). -/
def readyTest (z : Zone) (r : BinRecord) : Bool :=
  r.key.claim.isNone && (r.key.state == .live || r.key.state == .silent) &&
    match r.reading.fill with
    | some f => z.active.collect ≤ f.percent
    | none => false

/-- The ready list changed, and the ready members counter with it. -/
def Work.setReadyList (z : ZoneNo) (l : List Nat) (n : Nat → Nat) (w : Work) : Work :=
  w.modZone z (fun zn => { zn with readyList := l, counters := { zn.counters with readyMembers := n zn.counters.readyMembers } })

/-- A record's ready membership written. -/
def setReady (b : Bool) (r : BinRecord) : BinRecord := { r with key := { r.key with ready := b } }

/-- The list step (R97); in the claim form a record that leaves its list gives no WITHDRAWN. -/
def listStep (claimForm : Bool) (slot : Nat) (w : Work) : Work :=
  match w.record slot with
  | none => w
  | some r =>
    let z := w.zone r.key.zone
    match readyTest z r, r.key.ready with
    | true, false =>
      ((w.setReadyList r.key.zone (placeIn w.store.slots slot z.readyList) (· + 1)).putRecord slot (setReady true r)).give
        (unmutedWatchers z) (binNotice .ready r w.clock)
    | false, true =>
      ((w.setReadyList r.key.zone (takeOut slot z.readyList) (· - 1)).putRecord slot (setReady false r)).give
        (if claimForm then [] else unmutedWatchers z) (binNotice .withdrawn r w.clock)
    | true, true => w.setReadyList r.key.zone (placeIn w.store.slots slot (takeOut slot z.readyList)) id
    | false, false => w

/-- The urgent flag a record should have (R98). -/
def urgentTest (z : Zone) (r : BinRecord) : Bool :=
  match r.reading.fill with
  | some f => z.active.urgent ≤ f.percent
  | none => false

/-- A record's urgent flag written. -/
def setUrgent (b : Bool) (r : BinRecord) : BinRecord := { r with key := { r.key with urgent := b } }

/-- Who receives URGENT: the owner of the route that claims the record, or the zone's watchers when it is unclaimed (R98, R109). -/
def Work.giveUrgent (r : BinRecord) (w : Work) : Work :=
  match r.key.claim with
  | none => w.give (unmutedWatchers (w.zone r.key.zone)) (binNotice .urgent r w.clock)
  | some i =>
    match w.route i with
    | some rt => w.give [rt.owner] { binNotice .urgent r w.clock with route := some i }
    | none => w

/-- The urgent step (R98). -/
def urgentStep (slot : Nat) (w : Work) : Work :=
  match w.record slot with
  | none => w
  | some r =>
    match urgentTest (w.zone r.key.zone) r, r.key.urgent with
    | true, false =>
      ((w.modCounters r.key.zone (fun c => { c with urgent := c.urgent + 1 })).putRecord slot (setUrgent true r)).giveUrgent r
    | false, true => (w.modCounters r.key.zone (fun c => { c with urgent := c.urgent - 1 })).putRecord slot (setUrgent false r)
    | true, true => w
    | false, false => w

/-- The band of a fill: fill div 10, with a fill of 100 in band 9 (R99). -/
def bandOfFill (percent : Nat) : Fin 10 := ⟨min 9 (percent / 10), by omega⟩

/-- The band a record should be counted under (R99). -/
def bandTest (r : BinRecord) : Option (Fin 10) :=
  if r.key.state = .poisoned then none else r.reading.fill.map (fun f => bandOfFill f.percent)

/-- A band counter lowered, when there is a band. -/
def bandDown (b : Option (Fin 10)) (c : ZoneCounters) : ZoneCounters :=
  match b with
  | some i => { c with bands := vmod c.bands i (· - 1) }
  | none => c

/-- A band counter raised, when there is a band. -/
def bandUp (b : Option (Fin 10)) (c : ZoneCounters) : ZoneCounters :=
  match b with
  | some i => { c with bands := vmod c.bands i (· + 1) }
  | none => c

/-- A record's band copy written. -/
def setBand (b : Option (Fin 10)) (r : BinRecord) : BinRecord := { r with key := { r.key with band := b } }

/-- The band step (R99). -/
def bandStep (slot : Nat) (w : Work) : Work :=
  match w.record slot with
  | none => w
  | some r =>
    if bandTest r = r.key.band then w
    else (w.modCounters r.key.zone (fun c => bandUp (bandTest r) (bandDown r.key.band c))).putRecord slot (setBand (bandTest r) r)

/-- Ready evaluation of the record in a slot, in its ordinary form or, when `claimForm`, in its claim form (R96). -/
def evaluate (claimForm : Bool) (slot : Nat) (w : Work) : Work := bandStep slot (urgentStep slot (listStep claimForm slot w))

end Sys2Proof.Machine
end

