-- ==== Sys2Proof/Machine/Integrity.lean ====
section
/-! DEFINITION. State moves (R4), the members and ends of routes (R114, R115, R130), poisoning and halting (R191 to R194), and the checked reads of
the Bin Index and of records (R8, R10, R12). -/

namespace Sys2Proof.Machine

/-! ### State moves (R4, R5) -/

/-- The zone counters without a record of a state: SILENT and FAULTED are counted (R4). -/
def leaveState (st : RecState) (c : ZoneCounters) : ZoneCounters :=
  match st with
  | .silent => { c with silent := c.silent - 1 }
  | .faulted => { c with faulted := c.faulted - 1 }
  | .new | .live | .poisoned => c

/-- The zone counters with a record of a state more. -/
def enterState (st : RecState) (c : ZoneCounters) : ZoneCounters :=
  match st with
  | .silent => { c with silent := c.silent + 1 }
  | .faulted => { c with faulted := c.faulted + 1 }
  | .new | .live | .poisoned => c

/-- A record changed, with its move to a state counted in its zone (R4). -/
def Work.moveRecord (slot : Nat) (st : RecState) (reading : ReadingGroup) (r : BinRecord) (w : Work) : Work :=
  (w.modCounters r.key.zone (fun c => enterState st (leaveState r.key.state c))).putRecord slot
    { r with key := { r.key with state := st }, reading := reading }

/-! ### Members and the end of a route -/

/-- The PENDING member of a bin moved to a final state (R114). -/
def moveMember (bin : BinNumber) (st : MemberState) (m : Member) : Member :=
  if m.bin = bin && m.state == .pending then { m with state := st } else m

/-- A member of a route leaves PENDING. -/
def Work.endMember (i : RouteIdx) (bin : BinNumber) (st : MemberState) (w : Work) : Work :=
  match w.route i with
  | some rt => w.setRoute i (some { rt with members := rt.members.map (moveMember bin st) })
  | none => w

/-- A notice about a member, given to the route's owner (R114, Table 9.3). -/
def Work.giveMember (k : NoticeKind) (i : RouteIdx) (r : BinRecord) (w : Work) : Work :=
  match w.route i with
  | some rt => w.give [rt.owner] { binNotice k r w.clock with route := some i }
  | none => w

/-- The record in a slot is unclaimed, without the evaluation (R115): its claim is absent and its zone's claimed counter falls by one. -/
def Work.unclaim (slot : Nat) (w : Work) : Work :=
  match w.record slot with
  | none => w
  | some r =>
    (w.modCounters r.key.zone (fun c => { c with claimed := c.claimed - 1 })).putRecord slot { r with key := { r.key with claim := none } }

/-- Whether a member list holds a PENDING member. -/
def anyPending (ms : List Member) : Bool := ms.any (fun m => m.state == .pending)

def countDone (ms : List Member) : Nat := ms.countP (fun m => match m.state with | .done _ => true | .pending | .released | .lost => false)
def countReleased (ms : List Member) : Nat := ms.countP (fun m => m.state == .released)
def countLost (ms : List Member) : Nat := ms.countP (fun m => m.state == .lost)

/-- The end status of a route that ends with no PENDING member: COMPLETE when every member is DONE, otherwise CLOSED (R129). -/
def endStatusOf (ms : List Member) : EndStatus := if countDone ms = ms.length then .complete else .closed

/-- ROUTE_ENDED (R130(d), Table 9.3). -/
def routeEnded (i : RouteIdx) (rt : Route) (st : EndStatus) (minute : Minute) : Notice :=
  { kind := .routeEnded, zone := none, route := some i, bin := none, minute := minute,
    value := some (.routeEnd rt.tag st (countDone rt.members) (countReleased rt.members) (countLost rt.members)) }

/-- A route entry becomes FREE and its deadline copy absent (R130(c), R132). -/
def Work.freeRoute (i : RouteIdx) (w : Work) : Work := (w.setRoute i none).setDeadline i none

/-- A route ends with a status, and ROUTE_ENDED is given to its owner (R130). -/
def Work.endRoute (i : RouteIdx) (st : EndStatus) (w : Work) : Work :=
  match w.route i with
  | some rt => (w.freeRoute i).give [rt.owner] (routeEnded i rt st w.clock)
  | none => w

/-- A route left with no PENDING member ends (R129, R130). -/
def Work.endIfDone (i : RouteIdx) (w : Work) : Work :=
  match w.route i with
  | some rt => if anyPending rt.members then w else w.endRoute i (endStatusOf rt.members)
  | none => w

/-- Whether the entry at an index is FREE. -/
def Work.isFree (i : RouteIdx) (w : Work) : Bool := (w.route i).isNone

/-! ### Poisoning (R192) -/

/-- The loss of a poisoned record's member (R192(c)); `ends` says whether the route's end is made here or by the operation itself (R124, R130, R131). -/
def Work.loseMember (ends : Bool) (slot : Nat) (w : Work) : Work :=
  match w.record slot with
  | none => w
  | some r =>
    match r.key.claim with
    | none => w
    | some i =>
      let w' := ((w.endMember i r.key.bin .lost).giveMember .memberLost i r).unclaim slot
      if ends then w'.endIfDone i else w'

/-- The fresh, empty reading group of a POISONED record (R6, R192(b)). -/
def Work.emptyReading (slot : Nat) (w : Work) : Work :=
  match w.record slot with
  | none => w
  | some r => (w.moveRecord slot .poisoned ReadingGroup.empty { r with readingHealth := .sound })

/-- POISONED for a bin, to the zone's watchers and to channel 0, whatever the notice mute (R192(e), R109). -/
def Work.givePoisoned (slot : Nat) (w : Work) : Work :=
  match w.record slot with
  | none => w
  | some r => w.give (watchersAndZero (w.zone r.key.zone)) (bareBinNotice .poisoned r w.clock)

/-- The poisoning of the record in a slot (R192), in the order of its changes. -/
def poison (ends : Bool) (slot : Nat) (w : Work) : Work :=
  ((evaluate false slot ((w.emptyReading slot).loseMember ends slot)).givePoisoned slot).bump .poisonedRecords

/-! ### Checked reads (R191, R193, R194) -/

/-- An uncorrectable error in a key group or an index entry: it halts the device, or is only counted when the device is HALTED. -/
def Work.uncorrectable (w : Work) : Work :=
  if w.condition = .halted then w.bump .uncorrectableHalted
  else { w.bump .uncorrectable with condition := .halted, halting := true }

/-- A way is read and checked. -/
def checkWay (w : Work) (k : Nat) : Work :=
  match sfind k w.store.wayHealth with
  | some .single => { w.bump .corrected with store := { w.store with wayHealth := sdrop k w.store.wayHealth } }
  | some .double => w.uncorrectable
  | some .sound => w
  | none => w

/-- An overflow entry is read and checked. -/
def checkOverflow (w : Work) (k : Nat) : Work :=
  match sfind k w.store.overflowHealth with
  | some .single => { w.bump .corrected with store := { w.store with overflowHealth := sdrop k w.store.overflowHealth } }
  | some .double => w.uncorrectable
  | some .sound => w
  | none => w

/-- The key group of the record in a slot is read and checked. -/
def checkKey (slot : Nat) (w : Work) : Work :=
  match w.record slot with
  | none => w
  | some r =>
    match r.keyHealth with
    | .sound => w
    | .single => (w.bump .corrected).putRecord slot { r with keyHealth := .sound }
    | .double => w.uncorrectable

/-- The reading group of the record in a slot is read and checked; uncorrectable damage poisons the record, or is only counted when the device is HALTED. -/
def checkReading (ends : Bool) (slot : Nat) (w : Work) : Work :=
  match w.record slot with
  | none => w
  | some r =>
    match r.readingHealth with
    | .sound => w
    | .single => (w.bump .corrected).putRecord slot { r with readingHealth := .sound }
    | .double => if w.condition = .halted then w.bump .uncorrectableHalted else poison ends slot w

/-- Both groups of a record are read, the key group first (R191). -/
def readGroups (ends : Bool) (slot : Nat) (w : Work) : Work := checkReading ends slot (checkKey slot w)

/-! ### The Bin Index (R9 to R12) -/

/-- The bucket of a bin number (R9). -/
def bucketOf (b : BinNumber) : Nat := (b ^^^ (b >>> 12) ^^^ (b >>> 24)).toNat % Config.nBuckets

/-- The key under which way `i` of a bucket is listed. -/
def wayKey (bucket i : Nat) : Nat := 4 * bucket + i

/-- Whether a way has been found damaged beyond correction; its bin number cannot be compared (log entry 13). -/
def wayDamaged (st : RecordStore) (k : Nat) : Bool := sfind k st.wayHealth == some .double

/-- The way that holds a bin number, and its slot. -/
def wayHit (st : RecordStore) (b : BinNumber) (k : Nat) : Option (Nat × Nat) :=
  match sfind k st.ways with
  | some e => if e.bin = b && !wayDamaged st k then some (k, e.slot) else none
  | none => none

/-- Whether an overflow entry has been found damaged beyond correction. -/
def overflowDamaged (st : RecordStore) (k : Nat) : Bool := sfind k st.overflowHealth == some .double

/-- The overflow entry that holds a bin number of a bucket, and its slot. -/
def overflowHit (st : RecordStore) (b : BinNumber) (k : Nat) : Option (Nat × Nat) :=
  match sfind k st.overflow with
  | some e => if e.bin = b && e.bucket = bucketOf b && !overflowDamaged st k then some (k, e.slot) else none
  | none => none

/-- Where a lookup found a bin number. -/
inductive IndexPlace where
  | way (k : Nat)
  | overflow (k : Nat)
  deriving DecidableEq, Repr

/-- The four ways of a bucket, in way order. -/
def waysOf (bucket : Nat) : List Nat := [wayKey bucket 0, wayKey bucket 1, wayKey bucket 2, wayKey bucket 3]

/-- A lookup (R10): the four ways are read in way order and, when none matches, the 256 overflow entries in entry order; every one read is checked. -/
def lookupBin (b : BinNumber) (w : Work) : Work × Option (IndexPlace × Nat) :=
  let w1 := (waysOf (bucketOf b)).foldl checkWay w
  match (waysOf (bucketOf b)).findSome? (wayHit w1.store b) with
  | some (k, slot) => (w1, some (.way k, slot))
  | none =>
    let w2 := (List.range Config.nOverflow).foldl checkOverflow w1
    match (List.range Config.nOverflow).findSome? (overflowHit w2.store b) with
    | some (k, slot) => (w2, some (.overflow k, slot))
    | none => (w2, none)

/-- The lowest-numbered free way of a bucket (R11). -/
def freeWay (st : RecordStore) (bucket : Nat) : Option Nat := (waysOf bucket).find? (fun k => (sfind k st.ways).isNone)

/-- The lowest-numbered free overflow entry (R11). -/
def freeOverflow (st : RecordStore) : Option Nat :=
  (List.range Config.nOverflow).find? (fun k => (sfind k st.overflow).isNone)

/-- Whether an index entry of a bin number finds a place (R11). -/
def indexHasRoom (st : RecordStore) (b : BinNumber) : Bool := (freeWay st (bucketOf b)).isSome || (freeOverflow st).isSome

/-- The index entry of a bin number added (R11): a free way of its bucket first, otherwise a free overflow entry. -/
def addIndex (b : BinNumber) (slot : Nat) (st : RecordStore) : RecordStore :=
  match freeWay st (bucketOf b) with
  | some k => { st with ways := sput k { bin := b, slot := slot } st.ways }
  | none =>
    match freeOverflow st with
    | some k => { st with overflow := sput k { bucket := bucketOf b, bin := b, slot := slot } st.overflow }
    | none => st

/-- The lowest-numbered overflow entry tagged with a bucket (R12). -/
def firstTagged (st : RecordStore) (bucket : Nat) : Option (Nat × OverflowEntry) :=
  (List.range Config.nOverflow).findSome? (fun k =>
    match sfind k st.overflow with
    | some e => if e.bucket = bucket then some (k, e) else none
    | none => none)

/-- The index entry at a place removed; a freed way takes the lowest-numbered overflow entry of its bucket (R12). -/
def removeIndex (b : BinNumber) (place : IndexPlace) (st : RecordStore) : RecordStore :=
  match place with
  | .overflow k => { st with overflow := sdrop k st.overflow }
  | .way k =>
    match firstTagged st (bucketOf b) with
    | some (j, e) => { st with ways := sput k { bin := e.bin, slot := e.slot } st.ways, overflow := sdrop j st.overflow }
    | none => { st with ways := sdrop k st.ways }

/-- The search of the overflow area before a way is freed: all 256 entries are read and checked (R12; its place among the reads: log entry 27). -/
def searchOverflow (place : IndexPlace) (w : Work) : Work :=
  match place with
  | .way _ => (List.range Config.nOverflow).foldl checkOverflow w
  | .overflow _ => w

/-- Where a bin number's record stands, with the record, after the lookup's reads. -/
def findBin (b : BinNumber) (w : Work) : Work × Option (IndexPlace × Nat × BinRecord) :=
  let l := lookupBin b w
  match l.2 with
  | none => (l.1, none)
  | some (place, slot) =>
    match l.1.record slot with
    | some r => (l.1, some (place, slot, r))
    | none => (l.1, none)

/-- The record in a slot taken as `d` when the slot is free. -/
def Work.recordD (slot : Nat) (d : BinRecord) (w : Work) : BinRecord := (w.record slot).getD d

end Sys2Proof.Machine
end

