-- ==== Sys2Proof/Machine/Entries.lean ====
section
/-! DEFINITION. The application of FILL, EMPTIED and FAULT entries (Chapter 3, section 3.3). -/

namespace Sys2Proof.Machine

/-! ### The four tests (R55 to R59) -/

/-- Whether a minute is not later than an optional one; an absent time makes no entry stale (R59). -/
def notLater (t : Minute) (u : Option Minute) : Bool :=
  match u with
  | some v => t.toNat ≤ v.toNat
  | none => false

/-- The STALE test of each kind (R59). -/
def isStale (e : Entry) (r : ReadingGroup) : Bool :=
  match e.report with
  | .fill _ _ =>
    notLater e.time (r.fill.map FillReading.time) || notLater e.time r.emptiedTime || notLater e.time (r.pending.map PendingReading.time)
  | .fault _ _ => notLater e.time (r.fill.map FillReading.time) || notLater e.time r.emptiedTime
  | .emptied _ _ => notLater e.time r.emptiedTime

/-- A measured time later than the clock plus 2 minutes, the sum taken exactly (R58). -/
def isFuture (t clock : Minute) : Bool := clock.toNat + 2 < t.toNat

/-- How an entry is judged: discarded with an outcome, ended by a halt, or valid for the record of a slot. -/
inductive Verdict where
  | discard (outcome : Counter)
  | halted
  | valid (slot : Nat)
  deriving DecidableEq, Repr

/-- STRAY for an unknown bin, with the entry's concentrator number (R56). -/
def strayNotice (e : Entry) (clock : Minute) : Notice :=
  { kind := .stray, zone := none, route := none, bin := some e.bin, minute := clock, value := some (.concentrator e.concentrator) }

/-- The tests made on the record once it has been read (R57 to R59). -/
def judgeRecord (e : Entry) (slot : Nat) (clock : Minute) (r : BinRecord) : Verdict :=
  if r.key.state = .poisoned then .discard .entriesPoisonedBin
  else if isFuture e.time clock then .discard .entriesFuture
  else if isStale e r.reading then .discard .entriesStale
  else .valid slot

/-- The judgement of an entry at its grant (R55 to R59): UNKNOWN, POISONED_BIN, FUTURE, STALE, in this order. -/
def judge (e : Entry) (w : Work) : Work × Verdict :=
  let f := findBin e.bin w
  if f.1.halting then (f.1, .halted)
  else
    match f.2 with
    | none => (f.1.give [0] (strayNotice e w.clock), .discard .entriesUnknown)
    | some (_, slot, r) =>
      let w' := readGroups true slot f.1
      if w'.halting then (w', .halted) else (w', judgeRecord e slot w.clock (w'.recordD slot r))

/-! ### Effects -/

/-- The later of a report time and a measured time (R60). -/
def laterReport (t : Minute) (u : Option Minute) : Option Minute :=
  match u with
  | some v => if v.toNat < t.toNat then some t else some v
  | none => some t

/-- The common effects of a valid FILL or FAULT on the reading group (R60). -/
def commonReading (p : Profile) (t : Minute) (battery : Nat) (r : ReadingGroup) : ReadingGroup :=
  testBattery p { r with reportTime := laterReport t r.reportTime, battery := some battery }

/-- BATTERY_LOW when the battery low flag has changed from clear to set (R60). -/
def Work.giveBatteryLow (before : Bool) (slot : Nat) (w : Work) : Work :=
  match w.record slot with
  | none => w
  | some r => if !before && r.reading.batteryLow then w.give (unmutedAndZero (w.zone r.key.zone)) (binNotice .batteryLow r w.clock) else w

/-- UNPLANNED_EMPTY for the record in a slot, to its zone's watchers (R64(b), R83). -/
def Work.giveUnplanned (slot : Nat) (w : Work) : Work :=
  match w.record slot with
  | none => w
  | some r => w.give (unmutedWatchers (w.zone r.key.zone)) (binNotice .unplannedEmpty r w.clock)

/-- The reading group of an applied FILL (R82), with no fault code, the record being LIVE (R61). -/
def appliedReading (v n : Nat) (t : Minute) (r : ReadingGroup) : ReadingGroup :=
  { r with fill := some { percent := v, time := t }, lastRaw := some n, pending := none, faultCode := none }

/-- The reading group of a held FILL (R82). -/
def heldReading (v n : Nat) (t : Minute) (r : ReadingGroup) : ReadingGroup :=
  { r with pending := some { percent := v, raw := n, time := t } }

/-- The state after a held FILL: SILENT moves to LIVE (Table 1.3). -/
def stateAfterHold (st : RecState) : RecState :=
  match st with
  | .silent => .live
  | .new => .new
  | .live => .live
  | .faulted => .faulted
  | .poisoned => .poisoned

/-- A valid FILL for the record of a slot (R60, R61, R81 to R83), and its outcome. -/
def applyFill (e : Entry) (reading : RawReading) (battery : Nat) (slot : Nat) (r : BinRecord) (w : Work) : Work :=
  let p := w.profileFor r
  let rd := commonReading p e.time battery r.reading
  let n := normalise reading
  let v := computeFill p n
  match spikeFilter p rd v e.time with
  | .apply =>
    let w1 := (w.moveRecord slot .live (appliedReading v n e.time rd) r).giveBatteryLow r.reading.batteryLow slot
    let w2 := if isDrop p r.reading.fill v then w1.giveUnplanned slot else w1
    (evaluate false slot w2).bump .entriesApplied
  | .hold =>
    let w1 := (w.moveRecord slot (stateAfterHold r.key.state) (heldReading v n e.time rd) r).giveBatteryLow r.reading.batteryLow slot
    (evaluate false slot w1).bump .entriesHeld

/-- The state after an applied emptying: NEW and SILENT move to LIVE (Table 1.3). -/
def stateAfterEmptying (st : RecState) : RecState :=
  match st with
  | .new => .live
  | .silent => .live
  | .live => .live
  | .faulted => .faulted
  | .poisoned => .poisoned

/-- Whether an emptying measured at `t` is applied in its full form (R62): not earlier than the fill time, or the record without fill. -/
def isFullForm (t : Minute) (r : ReadingGroup) : Bool :=
  match r.fill with
  | some f => f.time.toNat ≤ t.toNat
  | none => true

/-- The reading group after an emptying, in its full form (R62) or its late form (R63), with the report time of R60. -/
def emptiedReading (p : Profile) (t : Minute) (residual : Option RawReading) (source : EmptiedBy) (r : ReadingGroup) : ReadingGroup :=
  if isFullForm t r then
    { r with
      reportTime := laterReport t r.reportTime
      fill := some { percent := orZero (fun q => computeFill p (normalise q)) residual, time := t }
      lastRaw := residual.map normalise
      emptiedTime := some t
      emptiedBy := some source
      pending := none }
  else { r with reportTime := laterReport t r.reportTime, emptiedTime := some t, emptiedBy := some source }

/-- The effects of an emptying on the record of a slot, before its route hand-over (R60, R62, R63). -/
def Work.emptyRecord (t : Minute) (residual : Option RawReading) (source : EmptiedBy) (slot : Nat) (r : BinRecord) (w : Work) : Work :=
  w.moveRecord slot (stateAfterEmptying r.key.state) (emptiedReading (w.profileFor r) t residual source r.reading) r

/-- The hand-over of a claimed record: its member DONE, MEMBER_DONE to the owner, the record unclaimed, and the route's end (R64(a), R127). -/
def Work.handOver (i : RouteIdx) (t : Minute) (slot : Nat) (w : Work) : Work :=
  match w.record slot with
  | none => w
  | some r => (((w.endMember i r.key.bin (.done t)).giveMember .memberDone i r).unclaim slot).endIfDone i

/-- A valid EMPTIED for the record of a slot (R62 to R64). -/
def applyEmptied (e : Entry) (truck : Word16) (residual : Option RawReading) (slot : Nat) (r : BinRecord) (w : Work) : Work :=
  let w1 := w.emptyRecord e.time residual (.truck truck) slot r
  let w2 :=
    match r.key.claim with
    | some i => w1.handOver i e.time slot
    | none => w1.giveUnplanned slot
  (evaluate false slot w2).bump .entriesApplied

/-- FAULTED for the record of a slot, to the zone's watchers and to channel 0, whatever the mute (R65, R109). -/
def Work.giveFaulted (slot : Nat) (w : Work) : Work :=
  match w.record slot with
  | none => w
  | some r => w.give (watchersAndZero (w.zone r.key.zone)) (binNotice .faulted r w.clock)

/-- A valid FAULT for the record of a slot (R60, R65). -/
def applyFault (e : Entry) (code battery : Nat) (slot : Nat) (r : BinRecord) (w : Work) : Work :=
  let rd := { commonReading (w.profileFor r) e.time battery r.reading with faultCode := some code }
  let w1 := ((w.moveRecord slot .faulted rd r).giveBatteryLow r.reading.batteryLow slot).giveFaulted slot
  (evaluate false slot w1).bump .entriesApplied

/-- What a valid entry does, by its kind (R55). -/
def applyReport (e : Entry) (slot : Nat) (r : BinRecord) (w : Work) : Work :=
  match e.report with
  | .fill reading battery => applyFill e reading battery slot r w
  | .emptied truck residual => applyEmptied e truck residual slot r w
  | .fault code battery => applyFault e code battery slot r w

/-- The application of an entry (R55): its judgement, its effects, its outcome counted (R67). -/
def applyEntry (e : Entry) (w : Work) : Work :=
  match judge e w with
  | (w', .halted) => w'
  | (w', .discard outcome) => w'.bump outcome
  | (w', .valid slot) =>
    match w'.record slot with
    | some r => applyReport e slot r w'
    | none => w'

def isFillReport : Report → Bool
  | .fill _ _ => true
  | .emptied _ _ => false
  | .fault _ _ => false

def isEmptiedReport : Report → Bool
  | .fill _ _ => false
  | .emptied _ _ => true
  | .fault _ _ => false

def isFaultReport : Report → Bool
  | .fill _ _ => false
  | .emptied _ _ => false
  | .fault _ _ => true

/-- FILL_ENTRY: the FILL at the head of the Update Queue is applied, held or discarded at its grant (R55, R61). -/
def execFillEntry (s : State) : Host.Outcome State Fault Refusal := .next (runEntry isFillReport applyEntry s)

/-- EMPTIED_ENTRY: the EMPTIED at the head of the Update Queue is applied in its full or late form, or discarded (R55, R62 to R64). -/
def execEmptiedEntry (s : State) : Host.Outcome State Fault Refusal := .next (runEntry isEmptiedReport applyEntry s)

/-- FAULT_ENTRY: the FAULT at the head of the Update Queue is applied or discarded (R55, R65). -/
def execFaultEntry (s : State) : Host.Outcome State Fault Refusal := .next (runEntry isFaultReport applyEntry s)

end Sys2Proof.Machine
end

