-- ==== Sys2Proof/Machine/Records.lean ====
section
/-! DEFINITION. The record requests REGISTER, AMEND, RETIRE and LOOKUP (Chapter 1, section 1.5) and profile recomputation (R85). -/

namespace Sys2Proof.Machine

/-! ### REGISTER -/

/-- The record of a bin just registered (R16). -/
def newRecord (q : RegisterReq) (clock : Minute) : BinRecord :=
  { key := { bin := q.bin, kind := q.kind, zone := q.zone, profile := q.profile, state := .new, claim := none, ready := false,
             urgent := false, band := none, registered := clock }
    reading := ReadingGroup.empty
    keyHealth := .sound
    readingHealth := .sound }

/-- A REGISTER that passes its checks (R16): the record in its slot, its index entry, its zone's records counter and its profile's users count. -/
def placeRecord (q : RegisterReq) (slot : Nat) (w : Work) : Work :=
  let w1 := w.putRecord slot (newRecord q w.clock)
  let w2 := { w1 with store := addIndex q.bin slot w1.store, users := vmod w1.users q.profile (· + 1) }
  evaluate false slot (w2.modCounters q.zone (fun c => { c with records := c.records + 1 }))

/-- The checks (c) to (f) of REGISTER after its lookup (R15), and its effect. -/
def registerNew (q : RegisterReq) (s : State) (w : Work) : OpResult :=
  let p := vget w.active q.profile
  let slot := lowestFree 0 w.store.slots
  if !p.usable then finishWork s w .profileUnusable []
  else if !classFits p.cls q.kind then finishWork s w .profileMismatch []
  else if Config.nSlots ≤ slot then finishWork s w .tableFull []
  else if !indexHasRoom w.store q.bin then finishWork s w .indexFull []
  else finishWork s (placeRecord q slot w) .ok (byte2 slot)

/-- REGISTER at its grant (R15, R16). -/
def registerOp (rq : Request) (g : Grant) (s : State) : OpResult :=
  match parseRegister rq.body with
  | none => refuseWith .badRequest s
  | some q =>
    let l := lookupBin q.bin (workOf s g)
    if l.1.halting then finishWork s l.1 .halted []
    else
      match l.2 with
      | some (_, slot) => finishWork s l.1 .alreadyRegistered (byte2 slot)
      | none => registerNew q s l.1

/-! ### Profile recomputation (R85) and AMEND -/

/-- The reading group recomputed with a profile: the fill from the last raw reading, the pending reading absent, the battery low flag tested (R85(a) to (d)). -/
def recomputed (p : Profile) (r : ReadingGroup) : ReadingGroup :=
  testBattery p
    { r with
      fill := match r.lastRaw with
        | some raw => r.fill.map (fun f => { f with percent := computeFill p raw })
        | none => r.fill
      pending := none }

/-- The recomputation of the record in a slot, without its notices and its evaluation. -/
def Work.recompute (slot : Nat) (w : Work) : Work :=
  match w.record slot with
  | none => w
  | some r => w.putRecord slot { r with reading := recomputed (w.profileFor r) r.reading }

/-- Profile recomputation of the record in a slot (R85). -/
def recalibrate (slot : Nat) (r : BinRecord) (w : Work) : Work :=
  evaluate false slot ((w.recompute slot).giveBatteryLow r.reading.batteryLow slot)

/-- A field named with a value other than the current one; a named field equal to it is treated as not named (R17). -/
def changed {α : Type} [DecidableEq α] (named : Option α) (current : α) : Option α :=
  match named with
  | some v => if v = current then none else some v
  | none => none

/-- The zone counters without a record (R18, R21(c)). -/
def leaveZone (r : BinRecord) (c : ZoneCounters) : ZoneCounters :=
  let c1 := leaveState r.key.state (bandDown r.key.band c)
  { c1 with
    records := c1.records - 1
    readyMembers := if r.key.ready then c1.readyMembers - 1 else c1.readyMembers
    urgent := if r.key.urgent then c1.urgent - 1 else c1.urgent }

/-- A record taken out of its zone: its ready list and its counters (R18, R21(b) and (c)). -/
def Work.takeFromZone (slot : Nat) (r : BinRecord) (w : Work) : Work :=
  w.modZone r.key.zone (fun z =>
    { z with readyList := if r.key.ready then takeOut slot z.readyList else z.readyList, counters := leaveZone r z.counters })

/-- A record moved to another zone (R18): out of the old one, into the new one, with no membership, no band and its urgent flag clear. -/
def Work.moveZone (slot : Nat) (zone : ZoneNo) (r : BinRecord) (w : Work) : Work :=
  ((w.takeFromZone slot r).modCounters zone (fun c => enterState r.key.state { c with records := c.records + 1 })).putRecord slot
    { r with key := { r.key with zone := zone, ready := false, urgent := false, band := none } }

/-- The users counts when a record goes from one profile to another (R70). -/
def moveUser (a b : ProfileNo) (users : Vector Nat 32) : Vector Nat 32 := vmod (vmod users a (· - 1)) b (· + 1)

/-- A record given another profile and recomputed (R19). -/
def Work.changeProfile (slot : Nat) (p : ProfileNo) (w : Work) : Work :=
  match w.record slot with
  | none => w
  | some r =>
    Work.recompute slot
      ({ w with users := moveUser r.key.profile p w.users }.putRecord slot { r with key := { r.key with profile := p } })

/-- A record given another kind (R19). -/
def Work.changeKind (slot : Nat) (k : BinKind) (w : Work) : Work :=
  match w.record slot with
  | none => w
  | some r => w.putRecord slot { r with key := { r.key with kind := k } }

/-- The WITHDRAWN of a zone move, to the old zone's watchers, with the record's fill after the operation (R18, log entry 10). -/
def withdrawnFromZone (zone : ZoneNo) (after : BinRecord) (clock : Minute) : Notice :=
  { binNotice .withdrawn after clock with zone := some zone }

/-- An AMEND that passes its checks (R18, R19): zone move, profile and recomputation, kind, notices, ready evaluation. -/
def amendRecord (zone : Option ZoneNo) (profile : Option ProfileNo) (kind : Option BinKind) (slot : Nat) (r : BinRecord) (w : Work) : Work :=
  let w1 := match zone with | some z => w.moveZone slot z r | none => w
  let w2 := match profile with | some p => w1.changeProfile slot p | none => w1
  let w3 := match kind with | some k => w2.changeKind slot k | none => w2
  let w4 :=
    if zone.isSome && r.key.ready then
      w3.give (unmutedWatchers (w.zone r.key.zone)) (withdrawnFromZone r.key.zone (w3.recordD slot r) w.clock)
    else w3
  evaluate false slot (w4.giveBatteryLow r.reading.batteryLow slot)

/-- The owner channel of a route a record is claimed by. -/
def ownerOf (i : RouteIdx) (w : Work) : Channel :=
  match w.route i with
  | some rt => rt.owner
  | none => 0

/-- The checks (e) and (f) of AMEND (R17), and its effect. When nothing is changed nothing more is done (log entry 22). -/
def amendChecked (zone : Option ZoneNo) (profile : Option ProfileNo) (kind : Option BinKind) (slot : Nat) (r : BinRecord) (s : State)
    (w : Work) : OpResult :=
  let p := vget w.active (profile.getD r.key.profile)
  if !p.usable then finishWork s w .profileUnusable []
  else if !classFits p.cls (kind.getD r.key.kind) then finishWork s w .profileMismatch []
  else if zone.isNone && profile.isNone && kind.isNone then finishWork s w .ok []
  else finishWork s (amendRecord zone profile kind slot r w) .ok []

/-- The checks (c) and (d) of AMEND on the record once it has been read (R17). -/
def amendFound (q : AmendReq) (slot : Nat) (r : BinRecord) (s : State) (w : Work) : OpResult :=
  if r.key.state = .poisoned then finishWork s w .poisoned []
  else
    match changed q.zone r.key.zone, r.key.claim with
    | some _, some i => finishWork s w .claimed (claimedBytes i (ownerOf i w))
    | zone, _ => amendChecked zone (changed q.profile r.key.profile) (changed q.kind r.key.kind) slot r s w

/-- AMEND at its grant (R17 to R19). -/
def amendOp (rq : Request) (g : Grant) (s : State) : OpResult :=
  match parseAmend rq.body with
  | none => refuseWith .badRequest s
  | some q =>
    let f := findBin q.bin (workOf s g)
    if f.1.halting then finishWork s f.1 .halted []
    else
      match f.2 with
      | none => finishWork s f.1 .unknown []
      | some (_, slot, r) =>
        let w := readGroups true slot f.1
        if w.halting then finishWork s w .halted [] else amendFound q slot (w.recordD slot r) s w

/-! ### RETIRE -/

/-- The loss of a retired record's member (R21(a)): MEMBER_LOST carries no value, and no evaluation is run. -/
def Work.retireMember (slot : Nat) (r : BinRecord) (w : Work) : Work :=
  match r.key.claim with
  | none => w
  | some i =>
    let w1 := w.endMember i r.key.bin .lost
    let w2 :=
      match w1.route i with
      | some rt => w1.give [rt.owner] { bareBinNotice .memberLost r w.clock with route := some i }
      | none => w1
    (w2.unclaim slot).endIfDone i

/-- A RETIRE that passes its checks (R21), in its order: route, ready list, counters, index, slot. -/
def retireRecord (place : IndexPlace) (slot : Nat) (r : BinRecord) (w : Work) : Work :=
  let w1 := w.retireMember slot r
  let w2 := if r.key.ready then w1.give (unmutedWatchers (w1.zone r.key.zone)) (bareBinNotice .withdrawn r w.clock) else w1
  let w3 := w2.takeFromZone slot r
  { w3 with
    store := { removeIndex r.key.bin place w3.store with slots := sdrop slot w3.store.slots }
    users := vmod w3.users r.key.profile (· - 1) }

/-- RETIRE once the record's key group has been read (R20(c), R12, R21). A RETIRE refused CLAIMED makes no search of the overflow area (log entry 27). -/
def retireFound (force : Bool) (place : IndexPlace) (slot : Nat) (r : BinRecord) (s : State) (w : Work) : OpResult :=
  match r.key.claim, force with
  | some i, false => finishWork s w .claimed (claimedBytes i (ownerOf i w))
  | _, _ =>
    let w1 := searchOverflow place w
    if w1.halting then finishWork s w1 .halted [] else finishWork s (retireRecord place slot r w1) .ok (byte2 slot)

/-- RETIRE at its grant (R20, R21). It reads no reading group (R8), and its key group before the search of the overflow area (log entry 27). -/
def retireOp (rq : Request) (g : Grant) (s : State) : OpResult :=
  match parseRetire rq.body with
  | none => refuseWith .badRequest s
  | some (bin, force) =>
    let f := findBin bin (workOf s g)
    if f.1.halting then finishWork s f.1 .halted []
    else
      match f.2 with
      | none => finishWork s f.1 .unknown []
      | some (place, slot, r) =>
        let w := checkKey slot f.1
        if w.halting then finishWork s w .halted [] else retireFound force place slot r s w

/-! ### LOOKUP -/

/-- LOOKUP at its grant (R23): a record poisoned by its reads is shown POISONED. -/
def lookupOp (rq : Request) (g : Grant) (s : State) : OpResult :=
  match parseLookup rq.body with
  | none => refuseWith .badRequest s
  | some bin =>
    let f := findBin bin (workOf s g)
    if f.1.halting then finishWork s f.1 .halted []
    else
      match f.2 with
      | none => finishWork s f.1 .unknown []
      | some (_, slot, r) =>
        let w := readGroups true slot f.1
        finishWork s w .ok (recordView slot (w.recordD slot r))

/-- REGISTER (R15, R16). -/
def execRegister (ch : Channel) (s : State) : Host.Outcome State Fault Refusal := .next (runStore .register ch registerOp s)

/-- AMEND (R17 to R19). -/
def execAmend (ch : Channel) (s : State) : Host.Outcome State Fault Refusal := .next (runStore .amend ch amendOp s)

/-- RETIRE (R20, R21). -/
def execRetire (ch : Channel) (s : State) : Host.Outcome State Fault Refusal := .next (runStore .retire ch retireOp s)

/-- LOOKUP (R23). -/
def execLookup (ch : Channel) (s : State) : Host.Outcome State Fault Refusal := .next (runStore .lookup ch lookupOp s)

end Sys2Proof.Machine
end

