-- ==== Sys2Proof/Machine/Exports.lean ====
section
/-! DEFINITION. The export requests EXPORT, FETCH and ABORT EXPORT (Chapter 8). -/

namespace Sys2Proof.Machine

/-- An export place. -/
def State.place (s : State) (ch : Channel) : Option OpenExport := vget s.exportUnit.places ch

/-- The device with an export place and the free row count written. -/
def State.setPlace (ch : Channel) (p : Option OpenExport) (free : Nat) (s : State) : State :=
  { s with exportUnit := { freeRows := free, places := vset s.exportUnit.places ch p } }

/-- The remaining rows of an export place. -/
def rowsOf (p : Option OpenExport) : List ExportRow :=
  match p with
  | some e => e.rows
  | none => []

/-- A channel's export is closed and its remaining rows are freed (R153). -/
def State.closeExport (ch : Channel) (s : State) : State :=
  s.setPlace ch none (s.exportUnit.freeRows + (rowsOf (s.place ch)).length)

/-! ### EXPORT -/

/-- What a copy has made so far. -/
structure CopyScan where
  w : Work
  rows : List ExportRow
  deriving DecidableEq, Repr

/-- One record copied to a row, after its groups have been read; a record poisoned by the reads gives a POISONED row (R156, R157). -/
def copyRow (sc : CopyScan) (slot : Nat) : CopyScan :=
  if sc.w.halting then sc
  else
    let w := readGroups true slot sc.w
    match w.record slot with
    | some r => if w.halting then { sc with w := w } else { w := w, rows := sc.rows ++ [exportRowOf slot r] }
    | none => { sc with w := w }

/-- The rows to be copied: the smaller of the maximum and the ready members counter (R154(c)). -/
def exportCount (z : Zone) (most : Nat) : Nat := min most z.counters.readyMembers

/-- The export a copy opens (R155). -/
def openedExport (z : ZoneNo) (sc : CopyScan) (g : Grant) : OpenExport := { zone := z, rows := sc.rows, lastActivity := g.clock }

/-- The result of an EXPORT on the device with its export place OPEN (R155). -/
def exportOpened (ch : Channel) (z : ZoneNo) (sc : CopyScan) (g : Grant) (s : State) : OpResult :=
  finishWork (s.setPlace ch (some (openedExport z sc g)) (s.exportUnit.freeRows - sc.rows.length)) sc.w .ok
    (byte2 sc.rows.length ++ byte1 z.val ++ byte4 g.clock.toNat)

/-- The copy of the first `n` members of a zone's ready list, and the opening of the export (R155, R157). -/
def exportCopy (ch : Channel) (z : ZoneNo) (n : Nat) (g : Grant) (s : State) : OpResult :=
  let sc := ((vget s.store.zones z).readyList.take n).foldl copyRow { w := workOf s g, rows := [] }
  if sc.w.halting then finishWork s sc.w .halted [] else exportOpened ch z sc g s

/-- EXPORT at its grant (R154): NOT_RUNNING, BAD_REQUEST, EMPTY, EXPORT_OPEN, NO_ROOM, then the copy. The free row count is the one read at the grant. -/
def zoneExportOp (ch : Channel) (rq : Request) (g : Grant) (s : State) : OpResult :=
  if s.control.condition ≠ .running then refuseWith .notRunning s
  else
    match parseZoneExport rq.body with
    | none => refuseWith .badRequest s
    | some (z, most) =>
      let n := exportCount (vget s.store.zones z) most
      if n = 0 then refuseWith .empty s
      else if (s.place ch).isSome then refuseWith .exportOpen s
      else if g.freeRows < n then answerWith .noRoom (byte2 g.freeRows) s
      else exportCopy ch z n g s

/-! ### FETCH and ABORT EXPORT -/

/-- The body of FETCH OK (R159, Table 11.8). -/
def fetchBytes (taken left : List ExportRow) : List Byte :=
  byte1 taken.length ++ byte2 left.length ++ flagByte left.isEmpty ++ taken.flatMap exportRowBytes

/-- The export place after rows have been taken from it: CLOSED when none remains (R159). -/
def placeAfterFetch (e : OpenExport) (left : List ExportRow) (now : Minute) : Option OpenExport :=
  if left.isEmpty then none else some { e with rows := left, lastActivity := now }

/-- FETCH (R159). -/
def fetchOp (ch : Channel) (rq : Request) (s : State) : OpResult :=
  match parseCount 16 rq.body with
  | none => refuseWith .badRequest s
  | some n =>
    match s.place ch with
    | none => refuseWith .noExport s
    | some e =>
      answerWith .ok (fetchBytes (e.rows.take n) (e.rows.drop n))
        (s.setPlace ch (placeAfterFetch e (e.rows.drop n) s.clock.minute) (s.exportUnit.freeRows + (e.rows.take n).length))

/-- ABORT EXPORT (R160). -/
def abortExportOp (ch : Channel) (rq : Request) (s : State) : OpResult :=
  match parseEmpty rq.body with
  | none => refuseWith .badRequest s
  | some _ =>
    match s.place ch with
    | none => refuseWith .noExport s
    | some e => answerWith .ok (byte2 e.rows.length) (s.closeExport ch)

/-- EXPORT (R154 to R157). -/
def execZoneExport (ch : Channel) (s : State) : Host.Outcome State Fault Refusal := .next (runStore .zoneExport ch (zoneExportOp ch) s)

/-- FETCH (R159). -/
def execFetch (ch : Channel) (s : State) : Host.Outcome State Fault Refusal := .next (runLocal .fetch ch (fetchOp ch) s)

/-- ABORT EXPORT (R160). -/
def execAbortExport (ch : Channel) (s : State) : Host.Outcome State Fault Refusal := .next (runLocal .abortExport ch (abortExportOp ch) s)

end Sys2Proof.Machine
end

