-- ==== Sys2Proof/Machine/Links.lean ====
section
/-! DEFINITION. The two byte-serial links: the receivers (R42 to R48, R164), the checks of a field frame (R49 to R54), the handling of a request frame
(R166, R33), and the two transmitters' queues (R53, R165). -/

namespace Sys2Proof.Machine

/-! ### A receiver -/

/-- What differs between the two receivers: the second marker byte and the length bounds (R43, R44, R164). -/
structure LinkForm where
  marker : Byte
  least : Nat
  most : Nat
  deriving DecidableEq, Repr

/-- The field link's receiver (R43, R44). -/
def fieldForm : LinkForm := { marker := 0x91#8, least := 15, most := 244 }

/-- The planner link's receiver (R164(a), (b)). -/
def plannerForm : LinkForm := { marker := 0x92#8, least := 4, most := 164 }

/-- What a byte brings about beside the receiver's own move. -/
inductive RxEvent where
  | none
  | markerIgnored
  | lengthRefused
  | complete (len body crc : List Byte)
  deriving DecidableEq, Repr

/-- The length held in the frame buffer, most significant byte first (R44). -/
def lengthOf : List Byte → Nat
  | [hi, lo] => (be16 hi lo).toNat
  | _ => 0

/-- A receiver that has taken a marker (R43): its buffer empty, its gap timer started (R46). -/
def Receiver.opened (limit : Nat) : Receiver :=
  { state := .header, candidate := false, len := [], body := [], crc := [], gap := some limit }

/-- A byte looked at in HUNT (R43); a marker is taken only while there is room for its response (R164(d), R165). -/
def Receiver.hunt (f : LinkForm) (room : Bool) (limit : Nat) (b : Byte) (r : Receiver) : Receiver × RxEvent :=
  if r.candidate && b == f.marker then
    if room then (Receiver.opened limit, .none) else (Receiver.idle, .markerIgnored)
  else if b = 0xD3#8 then ({ Receiver.idle with candidate := true, gap := some limit }, .none)
  else (Receiver.idle, .none)

/-- A byte stored in HEADER, and the length check at the second (R44, R164(b), (c)). -/
def Receiver.header (f : LinkForm) (limit : Nat) (b : Byte) (r : Receiver) : Receiver × RxEvent :=
  match r.len with
  | [] => ({ r with len := [b], gap := some limit }, .none)
  | hi :: _ =>
    if f.least ≤ lengthOf [hi, b] && lengthOf [hi, b] ≤ f.most then
      ({ r with state := .body, len := [hi, b], gap := some limit }, .none)
    else (Receiver.idle, .lengthRefused)

/-- A byte stored in BODY; the last body byte moves the receiver to CHECK (R45). -/
def Receiver.bodyByte (limit : Nat) (b : Byte) (r : Receiver) : Receiver × RxEvent :=
  ({ r with
     state := if lengthOf r.len ≤ r.body.length + 1 then .check else .body
     body := r.body ++ [b]
     gap := some limit }, .none)

/-- A byte stored in CHECK; the second CRC byte completes the frame (R45). -/
def Receiver.checkByte (limit : Nat) (b : Byte) (r : Receiver) : Receiver × RxEvent :=
  match r.crc with
  | [] => ({ r with crc := [b], gap := some limit }, .none)
  | c :: _ => (Receiver.idle, .complete r.len r.body [c, b])

/-- A byte taken by a receiver at the end of its stop bit (Table 3.1), the gap timer started anew with the limit in force (R46). -/
def Receiver.take (f : LinkForm) (room : Bool) (limit : Nat) (b : Byte) (r : Receiver) : Receiver × RxEvent :=
  match r.state with
  | .hunt => r.hunt f room limit b
  | .header => r.header f limit b
  | .body => r.bodyByte limit b
  | .check => r.checkByte limit b

/-- The receiver of a link. -/
def State.rx (s : State) : Link → Receiver
  | .field => s.fieldPort.rx
  | .planner => s.plannerPort.rx

/-- The device with the receiver of a link written. -/
def State.setRx (l : Link) (r : Receiver) (s : State) : State :=
  match l with
  | .field => { s with fieldPort := { s.fieldPort with rx := r } }
  | .planner => { s with plannerPort := { s.plannerPort with rx := r } }

/-! ### A complete field frame (R49 to R54) -/

/-- A frame outcome counted and answered (R53, R54). -/
def State.fieldOutcome (c : Counter) (frame : Byte) (st : FrameStatus) (s : State) : State := (s.bump c).reply frame st

/-- The form and room checks of a frame of RUNNING, and its acceptance (Table 3.3, R51, R52). -/
def State.fieldEntries (frame : Byte) (body : List Byte) (s : State) : State :=
  match decodeFieldBody body with
  | none => s.fieldOutcome .framesFormat frame .format
  | some es =>
    if s.freePlaces < es.length then s.fieldOutcome .framesFull frame .full
    else State.fieldOutcome .framesAccepted frame .accepted { s with updateQueue := s.updateQueue ++ es }

/-- Whether the CRC received is the CRC of the length and body bytes (R195). -/
def crcGood (len body crc : List Byte) : Bool := crcBytes (crc16 (len ++ body)) == crc

/-- A complete field frame checked, accepted or refused, and answered (Table 3.3). -/
def State.fieldComplete (len body crc : List Byte) (s : State) : State :=
  if !crcGood len body crc then s.fieldOutcome .framesCrcError (frameNumberOf body) .crcError
  else if s.control.condition ≠ .running then s.fieldOutcome .framesNotRunning (frameNumberOf body) .notRunning
  else s.fieldEntries (frameNumberOf body) body

/-- What a byte on the field link brings about; a refusal at HEADER answers frame number 0 (R44). -/
def State.fieldEvent (e : RxEvent) (s : State) : State :=
  match e with
  | .none => s
  | .markerIgnored => s
  | .lengthRefused => s.fieldOutcome .framesFormat 0#8 .format
  | .complete len body crc => s.fieldComplete len body crc

/-! ### A complete request frame (R166, R33) -/

/-- A response handed over at a request frame's arrival, with the fields as received and no body (R166, R33). -/
def arrivalResponse (channel : Byte) (tag : Word16) (kind : Byte) (code : RespCode) : Response :=
  { channel := channel, tag := tag, kind := kind, code := code, body := [] }

/-- Whether a request of channel `c` is a reset that purges the queue of channel `ch` when it is executed (R38(a), R39). -/
def resetPurges (c : Channel) (rq : Request) (ch : Channel) : Bool :=
  (rq.kind == requestCode .tableReset && c == 0 && rq.body.isEmpty && ch != 0) ||
    (rq.kind == requestCode .channelReset && (c == 0 || c == ch) && parseTarget rq.body == some ch)

/-- Whether a reset under its grant is about to purge the queue of channel `ch` (R37). -/
def State.purging (ch : Channel) (s : State) : Bool :=
  (List.finRange 8).any (fun c => (s.grantAt (posOf c)).isSome && (s.chan c).queue.head?.any (fun rq => resetPurges c rq ch))

/-- A request admitted to the end of its channel queue, or refused CHANNEL_FULL (R33). The requests that a reset under its grant is about to
remove take no place from it: it is admitted, and purged with them (R37; log entry 26). -/
def State.takeIn (ch : Channel) (rq : Request) (s : State) : State :=
  if (s.chan ch).queue.length < Config.channelQueuePlaces || s.purging ch then s.modChan ch (fun c => { c with queue := c.queue ++ [rq] })
  else (s.bump .channelFulls).respond (arrivalResponse (channelByte ch) rq.tag rq.kind .channelFull)

/-- A complete request frame: its CRC, its channel, its admission (R166). A body has four bytes at least (R164(b)). -/
def State.requestComplete (len body crc : List Byte) (s : State) : State :=
  match body with
  | c :: t1 :: t0 :: k :: rest =>
    if !crcGood len body crc then (s.bump .linkErrors).respond (arrivalResponse c (be16 t1 t0) k .linkError)
    else
      match channelOf c with
      | none => (s.bump .badChannels).respond (arrivalResponse c (be16 t1 t0) k .badRequest)
      | some ch => s.takeIn ch { tag := be16 t1 t0, kind := k, body := rest }
  | _ => s

/-- What a byte on the planner link brings about. -/
def State.plannerEvent (e : RxEvent) (s : State) : State :=
  match e with
  | .none => s
  | .markerIgnored => s.bump .markersIgnored
  | .lengthRefused => s.bump .requestsLength
  | .complete len body crc => s.requestComplete len body crc

/-! ### Bytes, gaps and breaks on either link -/

/-- Whether the planner transmitter has room for one response more (R165). -/
def State.hasRoom (s : State) : Bool := s.outstanding < Config.responsePlaces

/-- What the receiver of a link makes of a byte. -/
def State.takeRx (l : Link) (b : Byte) (s : State) : Receiver × RxEvent :=
  match l with
  | .field => s.fieldPort.rx.take fieldForm true s.control.params.gapLimit b
  | .planner => s.plannerPort.rx.take plannerForm s.hasRoom s.control.params.gapLimit b

/-- A byte taken on a link, with all it brings about (R43 to R45, R164 to R166). -/
def State.takeByte (l : Link) (b : Byte) (s : State) : State :=
  match l with
  | .field => (s.setRx .field (s.takeRx .field b).1).fieldEvent (s.takeRx .field b).2
  | .planner => (s.setRx .planner (s.takeRx .planner b).1).plannerEvent (s.takeRx .planner b).2

/-- A byte taken on a link only if it brings about an event of a kind; otherwise the step does not come about (log entry 1). -/
def State.takeByteIf (isKind : RxEvent → Bool) (l : Link) (b : Byte) (s : State) : State :=
  if isKind (s.takeRx l b).2 then s.takeByte l b else s

def RxEvent.isComplete : RxEvent → Bool
  | .complete _ _ _ => true
  | .none => false
  | .markerIgnored => false
  | .lengthRefused => false

def RxEvent.isLengthRefused : RxEvent → Bool
  | .lengthRefused => true
  | .none => false
  | .markerIgnored => false
  | .complete _ _ _ => false

def RxEvent.isMarkerIgnored : RxEvent → Bool
  | .markerIgnored => true
  | .none => false
  | .lengthRefused => false
  | .complete _ _ _ => false

/-- The counter of frames abandoned on a link (R54, R181). -/
def abandonCounter : Link → Counter
  | .field => .framesAbandoned
  | .planner => .requestsAbandoned

/-- A frame in reception abandoned and counted, or a marker candidate cleared; in plain HUNT nothing (R46, R47, R164). -/
def State.abandon (l : Link) (s : State) : State :=
  if (s.rx l).state ≠ .hunt then (s.setRx l Receiver.idle).bump (abandonCounter l)
  else if (s.rx l).candidate then s.setRx l Receiver.idle
  else s

/-- The gap timer of a link runs out, if it is running (R46). -/
def State.gapExpiry (l : Link) (s : State) : State := if (s.rx l).gap.isSome then s.abandon l else s

/-- The field transmitter has sent the last byte of its first reply (R53). -/
def State.replySent (s : State) : State := { s with fieldPort := { s.fieldPort with replies := s.fieldPort.replies.tail } }

/-- The planner transmitter has sent the last byte of its first response (R165). -/
def State.responseOut (s : State) : State :=
  { s with plannerPort := { s.plannerPort with responses := s.plannerPort.responses.tail } }

/-- BYTE_RECEIVED (R43 to R45, R164 to R166): whatever the byte brings about, it is brought about (log entry 8). -/
def execByteReceived (l : Link) (b : Byte) (s : State) : Host.Outcome State Fault Refusal := .next (takeEvent (State.takeByte l b) s)

/-- FIELD_FRAME_COMPLETE (R45, R49 to R54): the byte is the second CRC byte of a field frame. -/
def execFieldFrameComplete (b : Byte) (s : State) : Host.Outcome State Fault Refusal :=
  .next (takeEvent (State.takeByteIf RxEvent.isComplete .field b) s)

/-- FIELD_LENGTH_REFUSAL (R44): the byte is the second length byte of a field frame, and the length is out of bounds. -/
def execFieldLengthRefusal (b : Byte) (s : State) : Host.Outcome State Fault Refusal :=
  .next (takeEvent (State.takeByteIf RxEvent.isLengthRefused .field b) s)

/-- FRAME_REPLY_SENT (R53). -/
def execFrameReplySent (s : State) : Host.Outcome State Fault Refusal := .next (takeEvent State.replySent s)

/-- FRAME_GAP_EXPIRY (R46, R164). -/
def execFrameGapExpiry (l : Link) (s : State) : Host.Outcome State Fault Refusal := .next (takeEvent (State.gapExpiry l) s)

/-- BREAK (R47, R164): a break and a bad stop bit have the same effect. -/
def execLineBreak (l : Link) (_cause : BreakCause) (s : State) : Host.Outcome State Fault Refusal := .next (takeEvent (State.abandon l) s)

/-- REQUEST_FRAME_COMPLETE (R166): the byte is the second CRC byte of a request frame. -/
def execRequestFrameComplete (b : Byte) (s : State) : Host.Outcome State Fault Refusal :=
  .next (takeEvent (State.takeByteIf RxEvent.isComplete .planner b) s)

/-- REQUEST_LENGTH_REFUSAL (R164(c)): the byte is the second length byte of a request frame, and the length is out of bounds. -/
def execRequestLengthRefusal (b : Byte) (s : State) : Host.Outcome State Fault Refusal :=
  .next (takeEvent (State.takeByteIf RxEvent.isLengthRefused .planner b) s)

/-- MARKER_IGNORED (R165): the byte completes a request marker while W + Q is 40. -/
def execMarkerIgnored (b : Byte) (s : State) : Host.Outcome State Fault Refusal :=
  .next (takeEvent (State.takeByteIf RxEvent.isMarkerIgnored .planner b) s)

/-- RESPONSE_SENT (R165). -/
def execResponseSent (s : State) : Host.Outcome State Fault Refusal := .next (takeEvent State.responseOut s)

end Sys2Proof.Machine
end

