-- ==== Sys2Proof/Machine/Routes.lean ====
section
/-! DEFINITION. The route requests CLAIM, EXTEND, RELEASE, CONFIRM and ROUTE STATUS (Chapter 6), and the release of members that RELEASE, an
expiry and CHANNEL RESET share. -/

namespace Sys2Proof.Machine

/-! ### CLAIM -/

/-- What the check of a CLAIM's positions has found so far: the refusal entries, and the bins that pass with their slots. -/
structure ClaimScan where
  w : Work
  refusals : List RefusalEntry
  passed : List (BinNumber × Nat)
  deriving DecidableEq, Repr

def ClaimScan.refuse (position : Nat) (bin : BinNumber) (reason : RefusalReason) (sc : ClaimScan) : ClaimScan :=
  { sc with refusals := sc.refusals ++ [{ position := position, bin := bin, reason := reason }] }

def ClaimScan.pass (bin : BinNumber) (slot : Nat) (sc : ClaimScan) : ClaimScan := { sc with passed := sc.passed ++ [(bin, slot)] }

/-- The tests 3 to 5 of Table 6.5 on a record once it has been read. -/
def claimRecord (position : Nat) (bin : BinNumber) (slot : Nat) (r : BinRecord) (sc : ClaimScan) : ClaimScan :=
  if r.key.state = .poisoned then sc.refuse position bin .poisoned
  else
    match r.key.claim with
    | some i => sc.refuse position bin (.claimed i (ownerOf i sc.w))
    | none => if (sc.w.zone r.key.zone).claimLock then sc.refuse position bin .zoneLocked else sc.pass bin slot

/-- The check of one position (R117, R118); `earlier` are the bin numbers at the positions before it. -/
def claimPosition (earlier : List BinNumber) (bin : BinNumber) (sc : ClaimScan) : ClaimScan :=
  let position := earlier.length + 1
  if sc.w.halting then sc
  else if earlier.contains bin then sc.refuse position bin .repeated
  else
    let f := findBin bin sc.w
    if f.1.halting then { sc with w := f.1 }
    else
      match f.2 with
      | none => { sc with w := f.1 }.refuse position bin .unknown
      | some (_, slot, r) =>
        let w := readGroups true slot f.1
        if w.halting then { sc with w := w } else claimRecord position bin slot (w.recordD slot r) { sc with w := w }

/-- Every position is checked, whether or not an earlier one failed (R117). -/
def claimScan (earlier : List BinNumber) : List BinNumber → ClaimScan → ClaimScan
  | [], sc => sc
  | b :: rest, sc => claimScan (earlier ++ [b]) rest (claimPosition earlier b sc)

/-- The lowest-numbered FREE route entry (R119(a)). -/
def freeRouteEntry (routes : Vector (Option Route) 64) : Option RouteIdx :=
  (List.finRange 64).find? (fun i => (vget routes i).isNone)

/-- The clock plus a number of minutes, taken exactly and capped (R119(a)). -/
def deadlineAfter (clock : Minute) (minutes : Nat) : Minute := BitVec.ofNat 32 (min (clock.toNat + minutes) Config.max32)

/-- One record of a granted CLAIM (R119(c)). -/
def Work.claimRecordFor (i : RouteIdx) (w : Work) (slot : Nat) : Work :=
  match w.record slot with
  | none => w
  | some r =>
    evaluate true slot
      ((w.modCounters r.key.zone (fun c => { c with claimed := c.claimed + 1 })).putRecord slot { r with key := { r.key with claim := some i } })

/-- The route of a granted CLAIM (R119(a), (b)). -/
def claimedRoute (ch : Channel) (q : ClaimReq) (clock : Minute) (passed : List (BinNumber × Nat)) : Route :=
  { owner := ch, tag := q.tag, created := clock, deadline := deadlineAfter clock q.hold,
    members := passed.map (fun p => { bin := p.1, slot := p.2, state := .pending }) }

/-- The grant of a CLAIM (R119): the route, its records in member order, its deadline copy. -/
def grantClaim (i : RouteIdx) (rt : Route) (passed : List (BinNumber × Nat)) (w : Work) : Work :=
  ((passed.map Prod.snd).foldl (Work.claimRecordFor i) (w.setRoute i (some rt))).setDeadline i (some rt.deadline)

/-- Whether a HELD route of a channel carries a tag (R116(c)). -/
def tagInUse (ch : Channel) (tag : Word16) (routes : Vector (Option Route) 64) : Bool :=
  (List.finRange 64).any (fun i =>
    match vget routes i with
    | some rt => rt.owner == ch && rt.tag == tag
    | none => false)

/-- The check of every position, and the grant or the refusal whole (R117 to R119). -/
def claimPositions (i : RouteIdx) (ch : Channel) (q : ClaimReq) (g : Grant) (s : State) : OpResult :=
  let sc := claimScan [] q.bins { w := workOf s g, refusals := [], passed := [] }
  if sc.refusals.isEmpty && !sc.w.halting then
    let rt := claimedRoute ch q g.clock sc.passed
    finishWork s (grantClaim i rt sc.passed sc.w) .granted (byte1 i.val ++ byte4 rt.deadline.toNat)
  else finishWork s sc.w .refused (byte1 sc.refusals.length ++ sc.refusals.flatMap refusalBytes)

/-- CLAIM at its grant (R116): NOT_RUNNING, BAD_REQUEST, DUPLICATE_TAG, ROUTES_FULL, then its positions. -/
def claimOp (ch : Channel) (rq : Request) (g : Grant) (s : State) : OpResult :=
  if s.control.condition ≠ .running then refuseWith .notRunning s
  else
    match parseClaim rq.body with
    | none => refuseWith .badRequest s
    | some q =>
      if tagInUse ch q.tag s.store.routes then refuseWith .duplicateTag s
      else
        match freeRouteEntry s.store.routes with
        | none => refuseWith .routesFull s
        | some i => claimPositions i ch q g s

/-! ### Naming a held route (R121), EXTEND and ROUTE STATUS -/

/-- The HELD route a request of channel `ch` names by index and tag (R121). -/
def namedRoute (ch : Channel) (i : RouteIdx) (tag : Word16) (routes : Vector (Option Route) 64) : Option Route :=
  match vget routes i with
  | some rt => if rt.owner = ch && rt.tag == tag then some rt else none
  | none => none

/-- A route's deadline replaced, with its copy (R122, R132). -/
def Work.moveDeadline (i : RouteIdx) (rt : Route) (d : Minute) (w : Work) : Work :=
  (w.setRoute i (some { rt with deadline := d })).setDeadline i (some d)

/-- EXTEND at its grant (R122). -/
def extendOp (ch : Channel) (rq : Request) (g : Grant) (s : State) : OpResult :=
  match parseExtend rq.body with
  | none => refuseWith .badRequest s
  | some (i, tag, minutes) =>
    match namedRoute ch i tag s.store.routes with
    | none => refuseWith .noRoute s
    | some rt =>
      finishWork s ((workOf s g).moveDeadline i rt (deadlineAfter g.clock minutes)) .ok (byte4 (deadlineAfter g.clock minutes).toNat)

/-- ROUTE STATUS at its grant (R125). -/
def routeStatusOp (ch : Channel) (rq : Request) (_g : Grant) (s : State) : OpResult :=
  match parseRouteStatus rq.body with
  | none => refuseWith .badRequest s
  | some i =>
    match vget s.store.routes i with
    | some rt => if rt.owner = ch then answerWith .ok (routeStatusBytes i rt) s else refuseWith .noRoute s
    | none => refuseWith .noRoute s

/-! ### Releasing members (R123, R130(a), R131) -/

/-- What the release of a route's members has done so far: the notices of poisonings met, which follow those of the evaluations, the number of
members released, and the positions found not pending. -/
structure ReleaseScan where
  w : Work
  poisonOut : List (Channel × Notice)
  released : Nat
  notPending : List Nat
  deriving DecidableEq, Repr

/-- The reads of a member's record, with the notices of a poisoning set apart. -/
def ReleaseScan.readMember (slot : Nat) (sc : ReleaseScan) : ReleaseScan :=
  let w := readGroups false slot { sc.w with out := [] }
  { sc with w := { w with out := sc.w.out }, poisonOut := sc.poisonOut ++ w.out }

/-- A member whose record has been read sound is RELEASED, its record unclaimed and evaluated (R115, R123). -/
def ReleaseScan.free (i : RouteIdx) (bin : BinNumber) (slot : Nat) (sc : ReleaseScan) : ReleaseScan :=
  { sc with w := evaluate false slot ((sc.w.endMember i bin .released).unclaim slot), released := sc.released + 1 }

/-- Whether the record in a slot is POISONED. -/
def Work.isPoisoned (slot : Nat) (w : Work) : Bool :=
  match w.record slot with
  | some r => r.key.state == .poisoned
  | none => false

/-- One PENDING member released; a record poisoned by the reads has had its member made LOST instead (R123). -/
def releaseMember (i : RouteIdx) (sc : ReleaseScan) (m : Member) : ReleaseScan :=
  if sc.w.halting then sc
  else
    let sc' := sc.readMember m.slot
    if sc'.w.halting || sc'.w.isPoisoned m.slot then sc' else sc'.free i m.bin m.slot

/-- The PENDING members of a route, in member order. -/
def pendingMembers (rt : Route) : List Member := rt.members.filter (fun m => m.state == .pending)

/-- The PENDING member of a route with a bin number. -/
def pendingMember (i : RouteIdx) (bin : BinNumber) (w : Work) : Option Member :=
  match w.route i with
  | some rt => (pendingMembers rt).find? (fun m => m.bin == bin)
  | none => none

/-- One position of a RELEASE's bin list (R123). -/
def releasePosition (i : RouteIdx) (sc : ReleaseScan) (p : BinNumber × Nat) : ReleaseScan :=
  if sc.w.halting then sc
  else
    match pendingMember i p.1 sc.w with
    | some m => releaseMember i sc m
    | none => { sc with notPending := sc.notPending ++ [p.2 + 1] }

/-- The release of every PENDING member, or of a bin list's positions (R123). -/
def releaseAll (i : RouteIdx) (rt : Route) (bins : Option (List BinNumber)) (sc : ReleaseScan) : ReleaseScan :=
  match bins with
  | none => (pendingMembers rt).foldl (releaseMember i) sc
  | some l => l.zipIdx.foldl (releasePosition i) sc

/-- A release begun with the work of an operation. -/
def ReleaseScan.start (w : Work) : ReleaseScan := { w := w, poisonOut := [], released := 0, notPending := [] }

/-- The work of a release with the notices of its poisonings after those of its evaluations (R124, R130). -/
def ReleaseScan.work (sc : ReleaseScan) : Work := { sc.w with out := sc.w.out ++ sc.poisonOut }

/-- The body of RELEASE OK (R124, Table 11.8). -/
def releaseBytes (sc : ReleaseScan) (ended : Bool) : List Byte :=
  byte1 sc.notPending.length ++ sc.notPending.flatMap byte1 ++ byte1 sc.released ++ flagByte ended

/-- RELEASE at its grant (R123, R124). -/
def releaseOp (ch : Channel) (rq : Request) (g : Grant) (s : State) : OpResult :=
  match parseRelease rq.body with
  | none => refuseWith .badRequest s
  | some (i, tag, bins) =>
    match namedRoute ch i tag s.store.routes with
    | none => refuseWith .noRoute s
    | some rt =>
      let sc := releaseAll i rt bins (ReleaseScan.start (workOf s g))
      if sc.w.halting then finishWork s sc.work .halted []
      else finishWork s (sc.work.endIfDone i) .ok (releaseBytes sc ((sc.work.endIfDone i).isFree i))

/-! ### CONFIRM (R126, R127) -/

/-- A CONFIRM that passes its checks: an emptying reported by the channel, with the hand-over of its route's member (R127). -/
def confirmRecord (ch : Channel) (q : ConfirmReq) (slot : Nat) (r : BinRecord) (w : Work) : Work :=
  evaluate false slot ((w.emptyRecord q.time q.residual (.channel ch) slot r).handOver q.route q.time slot)

/-- The body of CONFIRM OK (R127, Table 11.8). -/
def confirmBytes (q : ConfirmReq) (slot : Nat) (w : Work) : List Byte :=
  byte1 (orZero FillReading.percent ((w.record slot).bind (fun r => r.reading.fill))) ++ flagByte (w.isFree q.route)

/-- The checks (d) to (f) of CONFIRM once the record has been read (R126). -/
def confirmFound (ch : Channel) (q : ConfirmReq) (slot : Nat) (r : BinRecord) (s : State) (w : Work) : OpResult :=
  if r.key.state = .poisoned then finishWork s w .poisoned []
  else if isFuture q.time w.clock then finishWork s w .future []
  else if notLater q.time r.reading.emptiedTime then finishWork s w .stale []
  else finishWork s (confirmRecord ch q slot r w) .ok (confirmBytes q slot (confirmRecord ch q slot r w))

/-- CONFIRM at its grant (R126, R127). -/
def confirmOp (ch : Channel) (rq : Request) (g : Grant) (s : State) : OpResult :=
  match parseConfirm rq.body with
  | none => refuseWith .badRequest s
  | some q =>
    match namedRoute ch q.route q.tag s.store.routes with
    | none => refuseWith .noRoute s
    | some _ =>
      match pendingMember q.route q.bin (workOf s g) with
      | none => refuseWith .notPending s
      | some m =>
        let w := readGroups true m.slot (workOf s g)
        match w.record m.slot with
        | some r => if w.halting then finishWork s w .halted [] else confirmFound ch q m.slot r s w
        | none => finishWork s w .notPending []

/-- CLAIM (R116 to R119). -/
def execClaim (ch : Channel) (s : State) : Host.Outcome State Fault Refusal := .next (runStore .claim ch (claimOp ch) s)

/-- EXTEND (R122). -/
def execExtend (ch : Channel) (s : State) : Host.Outcome State Fault Refusal := .next (runStore .extend ch (extendOp ch) s)

/-- RELEASE (R123, R124). -/
def execRelease (ch : Channel) (s : State) : Host.Outcome State Fault Refusal := .next (runStore .release ch (releaseOp ch) s)

/-- CONFIRM (R126, R127). -/
def execConfirm (ch : Channel) (s : State) : Host.Outcome State Fault Refusal := .next (runStore .confirm ch (confirmOp ch) s)

/-- ROUTE STATUS (R125). -/
def execRouteStatus (ch : Channel) (s : State) : Host.Outcome State Fault Refusal := .next (runStore .routeStatus ch (routeStatusOp ch) s)

end Sys2Proof.Machine
end

