-- ==== Sys2Proof/Machine/Zones.lean ====
section
/-! DEFINITION. The zone requests STAGE ZONE, APPLY ZONE, SET ZONE ATTRIBUTES and ZONE SUMMARY (Chapter 5). -/

namespace Sys2Proof.Machine

/-- A zone of the device. -/
def State.zone (s : State) (z : ZoneNo) : Zone := vget s.store.zones z

/-- The device with one zone changed. -/
def State.modZone (z : ZoneNo) (f : Zone → Zone) (s : State) : State :=
  { s with store := { s.store with zones := vmod s.store.zones z f } }

/-- 1 ≤ collect ≤ urgent ≤ 100 (R92). -/
def Thresholds.valid (t : Thresholds) : Bool := 1 ≤ t.collect && t.collect ≤ t.urgent && t.urgent ≤ 100

/-- STAGE ZONE (R103): a refused pair is sent back as received. -/
def stageZoneOp (rq : Request) (s : State) : OpResult :=
  match parseStageZone rq.body with
  | none => refuseWith .badRequest s
  | some (z, t) =>
    if t.valid then answerWith .ok [] (s.modZone z (fun zn => { zn with staged := t }))
    else answerWith .badThreshold (byte1 t.collect ++ byte1 t.urgent) s

/-- The staged pair copied to the active pair, the rescan outstanding flag set, and the zone handed to the Walker (R104, R139). -/
def State.applyZone (z : ZoneNo) (s : State) : State :=
  { s.modZone z (fun zn => { zn with active := zn.staged, rescan := true }) with walker := s.walker.addRescan z }

/-- APPLY ZONE at its grant (R104); an idle Walker starts the job at the end of the grant. -/
def applyZoneOp (rq : Request) (_g : Grant) (s : State) : OpResult :=
  match parseZoneNo rq.body with
  | none => refuseWith .badRequest s
  | some z => answerWith .ok [] (s.applyZone z)

/-- SET ZONE ATTRIBUTES at its grant (R107). -/
def setZoneAttributesOp (rq : Request) (_g : Grant) (s : State) : OpResult :=
  match parseZoneAttributes rq.body with
  | none => refuseWith .badRequest s
  | some (z, lock, mute) => answerWith .ok [] (s.modZone z (fun zn => { zn with claimLock := lock, noticeMute := mute }))

/-- The body of ZONE SUMMARY OK (R111, Table 11.8). -/
def zoneSummaryBytes (z : Zone) : List Byte :=
  byte1 z.active.collect ++ byte1 z.active.urgent ++ byte1 z.staged.collect ++ byte1 z.staged.urgent
    ++ flagsByte [z.claimLock, z.noticeMute, z.rescan]
    ++ byte1 (watchersOf z).length ++ (watchersOf z).flatMap (fun c => byte1 c.val)
    ++ byte2 z.counters.records ++ byte2 z.counters.readyMembers ++ byte2 z.counters.urgent ++ byte2 z.counters.claimed
    ++ byte2 z.counters.silent ++ byte2 z.counters.faulted ++ (List.finRange 10).flatMap (fun i => byte2 (vget z.counters.bands i))

/-- ZONE SUMMARY at its grant (R111): the staged pair is the one read at the grant. -/
def zoneSummaryOp (rq : Request) (g : Grant) (s : State) : OpResult :=
  match parseZoneNo rq.body with
  | none => refuseWith .badRequest s
  | some z => answerWith .ok (zoneSummaryBytes { s.zone z with staged := vget g.staged z }) s

/-- STAGE ZONE (R103). -/
def execStageZone (ch : Channel) (s : State) : Host.Outcome State Fault Refusal := .next (runLocal .stageZone ch stageZoneOp s)

/-- APPLY ZONE (R104). -/
def execApplyZone (ch : Channel) (s : State) : Host.Outcome State Fault Refusal := .next (runStore .applyZone ch applyZoneOp s)

/-- SET ZONE ATTRIBUTES (R107). -/
def execSetZoneAttributes (ch : Channel) (s : State) : Host.Outcome State Fault Refusal :=
  .next (runStore .setZoneAttributes ch setZoneAttributesOp s)

/-- ZONE SUMMARY (R111). -/
def execZoneSummary (ch : Channel) (s : State) : Host.Outcome State Fault Refusal := .next (runStore .zoneSummary ch zoneSummaryOp s)

end Sys2Proof.Machine
end

