-- ==== Sys2Proof/Machine/Notices.lean ====
section
/-! DEFINITION. The requests of Chapter 9: WATCH, UNWATCH, SET NOTICE MASK, TAKE NOTICES and CHANNEL RESET. -/

namespace Sys2Proof.Machine

/-! ### Watching zones (R175, R176) -/

/-- A zone's watcher set with a channel in it, or not in it. -/
def setWatcher (ch : Channel) (b : Bool) (z : Zone) : Zone := { z with watchers := vset z.watchers ch b }

/-- WATCH at its grant (R175). -/
def watchOp (ch : Channel) (rq : Request) (_g : Grant) (s : State) : OpResult :=
  match parseZoneNo rq.body with
  | none => refuseWith .badRequest s
  | some z => answerWith .ok [] (s.modZone z (setWatcher ch true))

/-- UNWATCH at its grant (R176). -/
def unwatchOp (ch : Channel) (rq : Request) (_g : Grant) (s : State) : OpResult :=
  match parseZoneNo rq.body with
  | none => refuseWith .badRequest s
  | some z => answerWith .ok [] (s.modZone z (setWatcher ch false))

/-! ### SET NOTICE MASK and TAKE NOTICES (R174, R172) -/

/-- SET NOTICE MASK (R174): a body of two bytes may hold any mask. -/
def setNoticeMaskOp (ch : Channel) (rq : Request) (s : State) : OpResult :=
  match parseMask rq.body with
  | none => refuseWith .badRequest s
  | some m => answerWith .ok [] (s.modChan ch (fun c => { c with mask := m }))

/-- A channel after its oldest entries have been taken: the overflow flag is cleared and the line deasserted when none is left (R172, R173). -/
def takeFrom (n : Nat) (c : ChannelState) : ChannelState :=
  { c with
    notices := c.notices.drop n
    overflow := c.overflow && !(c.notices.drop n).isEmpty
    attn := !(c.notices.drop n).isEmpty }

/-- The body of TAKE NOTICES OK (R172, Table 11.8): the overflow flag is sent as it stood before the request ran. -/
def takeNoticesBytes (n : Nat) (c : ChannelState) : List Byte :=
  byte1 (c.notices.take n).length ++ byte1 (c.notices.drop n).length ++ flagByte c.overflow ++ (c.notices.take n).flatMap noticeBytes

/-- TAKE NOTICES (R172). -/
def takeNoticesOp (ch : Channel) (rq : Request) (s : State) : OpResult :=
  match parseCount 8 rq.body with
  | none => refuseWith .badRequest s
  | some n => answerWith .ok (takeNoticesBytes n (s.chan ch)) (s.modChan ch (takeFrom n))

/-! ### CHANNEL RESET (R177 to R179) -/

/-- The requests a CHANNEL RESET of channel `ch` purges from the target's queue: all but the reset itself (R39). -/
def purgedRequests (ch target : Channel) (s : State) : List Request :=
  if target = ch then (s.chan target).queue.tail else (s.chan target).queue

/-- The target's queue purged (R37, R178(a)). -/
def State.purgeTarget (ch target : Channel) (s : State) : State :=
  State.purgeList target (purgedRequests ch target s)
    (s.modChan target (fun c => { c with queue := if target = ch then c.queue.take 1 else [] }))

/-- A channel removed from the watcher set of every zone (R178(b)). -/
def State.unwatchAll (ch : Channel) (s : State) : State :=
  { s with store := { s.store with zones := vmap (setWatcher ch false) s.store.zones } }

/-- How far the ending of the target's routes has come. -/
structure ResetScan where
  sc : ReleaseScan
  ended : Nat
  deriving DecidableEq, Repr

/-- One route entry: a HELD route of the target ends CLOSED, its PENDING members RELEASED, with no ROUTE_ENDED (R131). -/
def resetRoute (target : Channel) (rs : ResetScan) (i : RouteIdx) : ResetScan :=
  if rs.sc.w.halting then rs
  else
    match rs.sc.w.route i with
    | none => rs
    | some rt =>
      if rt.owner = target then
        let sc := releaseAll i rt none rs.sc
        if sc.w.halting then { rs with sc := sc } else { sc := { sc with w := sc.w.freeRoute i }, ended := rs.ended + 1 }
      else rs

/-- The changes (a) to (c), which are made in every condition (R178, R179). -/
def State.resetQueues (ch target : Channel) (s : State) : State :=
  ((s.purgeTarget ch target).unwatchAll target).closeExport target

/-- The change (d): every route of the target ended, in ascending index; in HALTED none is (R179). -/
def resetRoutes (target : Channel) (g : Grant) (s : State) : ResetScan :=
  let start : ResetScan := { sc := ReleaseScan.start (workOf s g), ended := 0 }
  if s.control.condition = .halted then start else (List.finRange 64).foldl (resetRoute target) start

/-- The body of CHANNEL RESET OK (R177, Table 11.8), with the counts taken on the device before the reset. -/
def channelResetBytes (ch target : Channel) (ended : Nat) (s : State) : List Byte :=
  byte1 (purgedRequests ch target s).length ++ byte1 ended ++ byte2 (rowsOf (s.place target)).length

/-- CHANNEL RESET at its grant (R177 to R179). -/
def channelResetOp (ch : Channel) (rq : Request) (g : Grant) (s : State) : OpResult :=
  match parseTarget rq.body with
  | none => refuseWith .badRequest s
  | some target =>
    let s1 := s.resetQueues ch target
    let rs := resetRoutes target g s1
    finishWork (s1.modChan target emptyNotices) rs.sc.work .ok (channelResetBytes ch target rs.ended s)

/-- WATCH (R175). -/
def execWatch (ch : Channel) (s : State) : Host.Outcome State Fault Refusal := .next (runStore .watch ch (watchOp ch) s)

/-- UNWATCH (R176). -/
def execUnwatch (ch : Channel) (s : State) : Host.Outcome State Fault Refusal := .next (runStore .unwatch ch (unwatchOp ch) s)

/-- SET NOTICE MASK (R174). -/
def execSetNoticeMask (ch : Channel) (s : State) : Host.Outcome State Fault Refusal :=
  .next (runLocal .setNoticeMask ch (setNoticeMaskOp ch) s)

/-- TAKE NOTICES (R172). -/
def execTakeNotices (ch : Channel) (s : State) : Host.Outcome State Fault Refusal :=
  .next (runLocal .takeNotices ch (takeNoticesOp ch) s)

/-- CHANNEL RESET (R177 to R179). -/
def execChannelReset (ch : Channel) (s : State) : Host.Outcome State Fault Refusal :=
  .next (runStore .channelReset ch (channelResetOp ch) s)

end Sys2Proof.Machine
end

