-- ==== Sys2Proof/Machine/Profiles.lean ====
section
/-! DEFINITION. The profile requests STAGE PROFILE, READ PROFILE and APPLY PROFILES (Chapter 4, section 4.2). -/

namespace Sys2Proof.Machine

/-! ### STAGE PROFILE -/

/-- The first field of a profile copy that fails its test, by its number in Table 11.8 (R71(b)): references, jump limit, confirm window,
drop limit, silence limit, low-battery level. -/
def failingField (p : Profile) : Option Nat :=
  if !p.usable then some 1
  else if !(1 ≤ p.jump && p.jump ≤ 100) then some 2
  else if !(1 ≤ p.window && p.window ≤ 1440) then some 3
  else if !(1 ≤ p.drop && p.drop ≤ 100) then some 4
  else if !(10 ≤ p.silence && p.silence ≤ 10080) then some 5
  else if !(p.lowBattery ≤ 15) then some 6
  else none

/-- The device with a staged copy written (R72). -/
def State.stageProfile (no : ProfileNo) (p : Profile) (s : State) : State :=
  { s with profiles := { s.profiles with staged := vset s.profiles.staged no p } }

/-- STAGE PROFILE (R71, R72). -/
def stageProfileOp (rq : Request) (s : State) : OpResult :=
  match parseStageProfile rq.body with
  | none => refuseWith .badRequest s
  | some (no, p) =>
    match failingField p with
    | some f => answerWith .badProfile (byte1 f) s
    | none => answerWith .ok [] (s.stageProfile no p)

/-! ### READ PROFILE -/

/-- The body of READ PROFILE OK (R73, Table 11.8). -/
def readProfileBytes (t : ProfileTable) (no : ProfileNo) : List Byte :=
  profileBytes (vget t.staged no) ++ flagByte (vget t.staged no).usable ++ profileBytes (vget t.active no)
    ++ flagByte (vget t.active no).usable ++ byte2 (vget t.users no)

/-- READ PROFILE (R73). -/
def readProfileOp (rq : Request) (s : State) : OpResult :=
  match parseProfileNo rq.body with
  | none => refuseWith .badRequest s
  | some no => answerWith .ok (readProfileBytes s.profiles no) s

/-! ### APPLY PROFILES -/

/-- The profiles whose staged copy differs from their active copy in at least one field, ascending (R74). -/
def changedProfiles (t : ProfileTable) : List ProfileNo :=
  (List.finRange 32).filter (fun p => vget t.staged p != vget t.active p)

/-- The changed profiles in class conflict, ascending (R74). -/
def classConflicts (t : ProfileTable) : List ProfileNo :=
  (List.finRange 32).filter (fun p => (vget t.staged p).cls != (vget t.active p).cls && vget t.users p != 0)

/-- A list of profile numbers with its count (Table 11.8). -/
def profileListBytes (l : List ProfileNo) : List Byte := byte1 l.length ++ l.flatMap (fun p => byte1 p.val)

/-- The staged set copied into the active set, and the changed profiles handed to the Walker when there are any (R75, R139). -/
def State.applyProfiles (s : State) : State :=
  { s with
    profiles := { s.profiles with active := s.profiles.staged }
    walker := if (changedProfiles s.profiles).isEmpty then s.walker else s.walker.addRecal (changedProfiles s.profiles) }

/-- APPLY PROFILES at its grant (R74, R75); an idle Walker starts the job at the end of the grant (R139). -/
def applyProfilesOp (rq : Request) (_g : Grant) (s : State) : OpResult :=
  match parseEmpty rq.body with
  | none => refuseWith .badRequest s
  | some _ =>
    if (classConflicts s.profiles).isEmpty then
      answerWith .ok (profileListBytes (changedProfiles s.profiles)) s.applyProfiles
    else answerWith .classConflict (profileListBytes (classConflicts s.profiles)) s

/-- STAGE PROFILE (R71, R72). -/
def execStageProfile (ch : Channel) (s : State) : Host.Outcome State Fault Refusal := .next (runLocal .stageProfile ch stageProfileOp s)

/-- READ PROFILE (R73). -/
def execReadProfile (ch : Channel) (s : State) : Host.Outcome State Fault Refusal := .next (runLocal .readProfile ch readProfileOp s)

/-- APPLY PROFILES (R74, R75). -/
def execApplyProfiles (ch : Channel) (s : State) : Host.Outcome State Fault Refusal := .next (runStore .applyProfiles ch applyProfilesOp s)

end Sys2Proof.Machine
end

