-- ==== Sys2Proof/Machine/Time.lean ====
section
/-! DEFINITION. The minute clock and what its advance brings about: the comparisons (R133, R140, R161), the items of the due list (R134, R162),
and one period of REFCLK with the storage damage it may bring (R189, section 10.4). -/

namespace Sys2Proof.Machine

/-! ### The minute clock (R189) -/

/-- The divider's return to 0, with the minute advance unless the clock stands at its greatest value (R189); the new value is handed to the Expiry
Unit and to the Table Walker. -/
def State.minuteAdvance (s : State) : State :=
  if s.clock.minute = 0xFFFFFFFF#32 then { s with clock := { s.clock with divider := 0 } }
  else
    State.raiseAge 1
      (State.handClock (s.clock.minute + 1#32) { s with clock := { minute := s.clock.minute + 1#32, divider := 0 } })

/-! ### The items of the due list (R134, R162) -/

/-- A route's end by expiry (R130, R134): its PENDING members RELEASED, then the route EXPIRED; a halt leaves it HELD (R193). -/
def expireRoute (i : RouteIdx) (rt : Route) (w : Work) : Work :=
  let sc := releaseAll i rt none (ReleaseScan.start w)
  if sc.w.halting then sc.work else sc.work.endRoute i .expired

/-- A route item judged at its grant (R134). -/
def judgeRoute (i : RouteIdx) (w : Work) : Work :=
  match w.route i with
  | some rt => if rt.deadline.toNat ≤ w.clock.toNat then expireRoute i rt w else w
  | none => w

/-- The device with its due list replaced. -/
def State.setDueList (l : List DueItem) (s : State) : State := { s with expiry := { s.expiry with dueList := l } }

/-- The route item at the head of the due list under the Expiry Unit's grant (R134): it leaves the list whatever comes of it. -/
def runRouteItem (s : State) : State :=
  match dueHead s.settle with
  | some (.route i, rest, g) =>
    let w := judgeRoute i (workOf s.settle g)
    endGrant g w.halting w.out ((s.settle.commit w).setDueList rest)
  | _ => s.settle

/-- EXPORT_ABANDONED (R162). -/
def exportAbandoned (z : ZoneNo) (freed : Nat) (minute : Minute) : Notice :=
  { kind := .exportAbandoned, zone := some z, route := none, bin := none, minute := minute, value := some (.rowsFreed freed) }

/-- An export item judged with the clock read at its grant (R162): the device after it, and the notices given. -/
def judgeExport (ch : Channel) (g : Grant) (s : State) : State × List (Channel × Notice) :=
  match s.place ch with
  | some e =>
    if exportIdle g.clock s.control.params.idleLimit (some e) then
      (s.closeExport ch, [(ch, exportAbandoned e.zone e.rows.length g.clock)])
    else (s, [])
  | none => (s, [])

/-- The export item at the head of the due list under the Expiry Unit's grant (R162): it leaves the list whatever comes of it. -/
def runExportItem (s : State) : State :=
  match dueHead s.settle with
  | some (.zoneExport ch, rest, g) =>
    let r := judgeExport ch g s.settle
    endGrant g false r.2 (r.1.setDueList rest)
  | _ => s.settle

/-! ### One period of REFCLK (R189, section 10.4) -/

/-- Damage adds up: a stored cell never stands better for it. -/
def worse : Health → Health → Health
  | .double, _ => .double
  | _, .double => .double
  | .single, _ => .single
  | _, .single => .single
  | .sound, .sound => .sound

/-- How the cell `k` of a list of cells that are not sound stands. -/
def healthAt (k : Nat) (l : List (Nat × Health)) : Health := (sfind k l).getD .sound

/-- Damage to one cell of a list of cells that are not sound; a cell left sound is not listed. -/
def damageCell (k : Nat) (h : Health) (l : List (Nat × Health)) : List (Nat × Health) :=
  if worse (healthAt k l) h = .sound then l else sput k (worse (healthAt k l) h) l

/-- Damage to a group of the record in a slot; a free slot holds no group. -/
def damageSlot (slot : Nat) (f : BinRecord → BinRecord) (slots : List (Nat × BinRecord)) : List (Nat × BinRecord) :=
  match sfind slot slots with
  | some r => sput slot (f r) slots
  | none => slots

/-- Storage damage to one cell of the Record Store. -/
def RecordStore.damage (d : Damage) (st : RecordStore) : RecordStore :=
  match d.cell with
  | .way k => if k < 4 * Config.nBuckets then { st with wayHealth := damageCell k d.health st.wayHealth } else st
  | .overflow k => if k < Config.nOverflow then { st with overflowHealth := damageCell k d.health st.overflowHealth } else st
  | .keyGroup n => { st with slots := damageSlot n (fun r => { r with keyHealth := worse r.keyHealth d.health }) st.slots }
  | .readingGroup n => { st with slots := damageSlot n (fun r => { r with readingHealth := worse r.readingHealth d.health }) st.slots }

/-- The storage damage of one period (log entry 6): the FREE VALUE Config.freeDamage at the count of its uses. -/
def State.strike (s : State) : State :=
  match Config.freeDamage s.freeCount with
  | some d => { s with freeCount := s.freeCount + 1, store := s.store.damage d }
  | none => { s with freeCount := s.freeCount + 1 }

/-- The divider raised by one, and the minute advance when it would reach 1,966,080 (R189). -/
def State.raiseDivider (s : State) : State :=
  if Config.minutePeriods ≤ s.clock.divider + 1 then s.minuteAdvance
  else { s with clock := { s.clock with divider := s.clock.divider + 1 } }

/-- One period of REFCLK: what step does when no command waits (log entry 5). -/
def State.period (s : State) : State := takeEvent (fun t => t.strike.raiseDivider) s

/-- MINUTE_ADVANCE (R189): the divider reaches 60 seconds. -/
def execMinuteAdvance (s : State) : Host.Outcome State Fault Refusal := .next (takeEvent State.minuteAdvance s)

/-- AGE_INTERVAL_PASSED (R140): the age count, raised, is compared with the age interval. -/
def execAgeIntervalPassed (s : State) : Host.Outcome State Fault Refusal := .next s.compareAge.look

/-- ROUTE_DEADLINE_DUE (R133): the deadline copies are compared with the clock value handed over. -/
def execRouteDeadlineDue (s : State) : Host.Outcome State Fault Refusal := .next s.compareRoutes.look

/-- EXPORT_IDLE_DUE (R161): the exports are compared with the clock value handed over, after the routes of the same advance. -/
def execExportIdleDue (s : State) : Host.Outcome State Fault Refusal := .next s.compareRoutes.compareExports.look

/-- ROUTE_EXPIRY (R134). -/
def execRouteExpiry (s : State) : Host.Outcome State Fault Refusal := .next (runRouteItem s)

/-- EXPORT_ABANDONED (R162). -/
def execExportAbandoned (s : State) : Host.Outcome State Fault Refusal := .next (runExportItem s)

end Sys2Proof.Machine
end

