-- ==== Sys2Proof/Machine/Walks.lean ====
section
/-! DEFINITION. The visits of the Table Walker (Chapter 7, section 7.3; R86). -/

namespace Sys2Proof.Machine

/-- A visit (R142, R143): the scrub, then the action unless the scrub has halted the device or the record is POISONED. -/
def visit (action : Nat → BinRecord → Work → Work) (slot : Nat) (w : Work) : Work :=
  let w' := readGroups true slot w
  if w'.halting then w'
  else
    match w'.record slot with
    | some r => if r.key.state = .poisoned then w' else action slot r w'
    | none => w'

/-- Whether a stored minute lies at least `n` minutes before the clock, the difference taken exactly (R144). -/
def agedBy (n : Nat) (t clock : Minute) : Bool := t.toNat + n ≤ clock.toNat

/-- The silence test (R144(a) to (c)) with silence limit `n`. -/
def silenceTest (n : Nat) (clock : Minute) (r : BinRecord) : Bool :=
  match r.key.state, r.reading.reportTime with
  | .new, none => agedBy n r.key.registered clock
  | .live, some t => agedBy n t clock
  | _, _ => false

/-- A record moved to SILENT, with SILENT to its zone's watchers and its ready evaluation (R144). -/
def makeSilent (slot : Nat) (r : BinRecord) (w : Work) : Work :=
  evaluate false slot ((w.moveRecord slot .silent r.reading r).give (unmutedWatchers (w.zone r.key.zone)) (binNotice .silent r w.clock))

/-- The action of an AGE visit (R144). -/
def ageAction (slot : Nat) (r : BinRecord) (w : Work) : Work :=
  if silenceTest (w.profileFor r).silence w.clock r then makeSilent slot r w else w

/-- The action of a RESCAN visit (R145). -/
def rescanAction (slot : Nat) (_r : BinRecord) (w : Work) : Work := evaluate false slot w

/-- The action of a RECAL visit (R86, R145). -/
def recalAction (slot : Nat) (r : BinRecord) (w : Work) : Work := recalibrate slot r w

def JobKind.isAge : JobKind → Bool
  | .age => true
  | .recal _ => false
  | .rescan _ => false

def JobKind.isRescan : JobKind → Bool
  | .rescan _ => true
  | .age => false
  | .recal _ => false

def JobKind.isRecal : JobKind → Bool
  | .recal _ => true
  | .age => false
  | .rescan _ => false

/-- AGE_VISIT (R142 to R144). -/
def execAgeVisit (s : State) : Host.Outcome State Fault Refusal := .next (runVisit JobKind.isAge (visit ageAction) s)

/-- RESCAN_VISIT (R142, R143, R145). -/
def execRescanVisit (s : State) : Host.Outcome State Fault Refusal := .next (runVisit JobKind.isRescan (visit rescanAction) s)

/-- RECAL_VISIT (R86, R142, R143, R145). -/
def execRecalVisit (s : State) : Host.Outcome State Fault Refusal := .next (runVisit JobKind.isRecal (visit recalAction) s)

end Sys2Proof.Machine
end

