-- ==== Sys2Proof/Machine/Dispatch.lean ====
section
/-! DEFINITION. The meaning of every command, one arm per constructor of Instr. -/

namespace Sys2Proof.Machine

def exec (i : Instr) (s : State) : Host.Outcome State Fault Refusal :=
  match i with
  | .powerOn => Sys2Proof.Machine.execPowerOn s
  | .byteReceived l b => Sys2Proof.Machine.execByteReceived l b s
  | .fieldFrameComplete b => Sys2Proof.Machine.execFieldFrameComplete b s
  | .fieldLengthRefusal b => Sys2Proof.Machine.execFieldLengthRefusal b s
  | .frameReplySent => Sys2Proof.Machine.execFrameReplySent s
  | .frameGapExpiry l => Sys2Proof.Machine.execFrameGapExpiry l s
  | .lineBreak l c => Sys2Proof.Machine.execLineBreak l c s
  | .requestFrameComplete b => Sys2Proof.Machine.execRequestFrameComplete b s
  | .requestLengthRefusal b => Sys2Proof.Machine.execRequestLengthRefusal b s
  | .markerIgnored b => Sys2Proof.Machine.execMarkerIgnored b s
  | .responseSent => Sys2Proof.Machine.execResponseSent s
  | .fillEntry => Sys2Proof.Machine.execFillEntry s
  | .emptiedEntry => Sys2Proof.Machine.execEmptiedEntry s
  | .faultEntry => Sys2Proof.Machine.execFaultEntry s
  | .register ch => Sys2Proof.Machine.execRegister ch s
  | .amend ch => Sys2Proof.Machine.execAmend ch s
  | .retire ch => Sys2Proof.Machine.execRetire ch s
  | .lookup ch => Sys2Proof.Machine.execLookup ch s
  | .stageProfile ch => Sys2Proof.Machine.execStageProfile ch s
  | .readProfile ch => Sys2Proof.Machine.execReadProfile ch s
  | .applyProfiles ch => Sys2Proof.Machine.execApplyProfiles ch s
  | .stageZone ch => Sys2Proof.Machine.execStageZone ch s
  | .applyZone ch => Sys2Proof.Machine.execApplyZone ch s
  | .setZoneAttributes ch => Sys2Proof.Machine.execSetZoneAttributes ch s
  | .zoneSummary ch => Sys2Proof.Machine.execZoneSummary ch s
  | .claim ch => Sys2Proof.Machine.execClaim ch s
  | .extend ch => Sys2Proof.Machine.execExtend ch s
  | .release ch => Sys2Proof.Machine.execRelease ch s
  | .confirm ch => Sys2Proof.Machine.execConfirm ch s
  | .routeStatus ch => Sys2Proof.Machine.execRouteStatus ch s
  | .zoneExport ch => Sys2Proof.Machine.execZoneExport ch s
  | .fetch ch => Sys2Proof.Machine.execFetch ch s
  | .abortExport ch => Sys2Proof.Machine.execAbortExport ch s
  | .watch ch => Sys2Proof.Machine.execWatch ch s
  | .unwatch ch => Sys2Proof.Machine.execUnwatch ch s
  | .setNoticeMask ch => Sys2Proof.Machine.execSetNoticeMask ch s
  | .takeNotices ch => Sys2Proof.Machine.execTakeNotices ch s
  | .channelReset ch => Sys2Proof.Machine.execChannelReset ch s
  | .start ch => Sys2Proof.Machine.execStart ch s
  | .tableReset ch => Sys2Proof.Machine.execTableReset ch s
  | .setClock ch => Sys2Proof.Machine.execSetClock ch s
  | .setParameters ch => Sys2Proof.Machine.execSetParameters ch s
  | .status ch => Sys2Proof.Machine.execStatus ch s
  | .unknownRequestKind ch => Sys2Proof.Machine.execUnknownRequestKind ch s
  | .ageVisit => Sys2Proof.Machine.execAgeVisit s
  | .rescanVisit => Sys2Proof.Machine.execRescanVisit s
  | .recalVisit => Sys2Proof.Machine.execRecalVisit s
  | .minuteAdvance => Sys2Proof.Machine.execMinuteAdvance s
  | .ageIntervalPassed => Sys2Proof.Machine.execAgeIntervalPassed s
  | .routeDeadlineDue => Sys2Proof.Machine.execRouteDeadlineDue s
  | .exportIdleDue => Sys2Proof.Machine.execExportIdleDue s
  | .routeExpiry => Sys2Proof.Machine.execRouteExpiry s
  | .exportAbandoned => Sys2Proof.Machine.execExportAbandoned s

end Sys2Proof.Machine
end

