-- ==== Sys2Proof/Machine/Step.lean ====
section
/-! DEFINITION. One step of the device: the command at the front of the queue, or one period of REFCLK when none waits; and the placing of a
command that a word spells. -/

namespace Sys2Proof.Machine

/-- One step. With no command waiting the device lets one period of REFCLK pass (log entry 5). -/
def step (s : State) : Host.Outcome State Fault Refusal :=
  match s.pending with
  | [] => .next s.period
  | c :: rest => exec c { s with pending := rest }

/-- The device with the command a table word spells put at the front of its queue; no word spells one. -/
def State.withFetchWord (s : State) (nbits w : Nat) : State :=
  match decodeTableWord nbits w with
  | some c => { s with pending := c :: s.pending }
  | none => s

end Sys2Proof.Machine
end

