-- ==== Sys2Proof/Safety.lean ====
section
/-! DEFINITION. What it means for the device to be in good order (the invariants its steps keep), and when a command has its turn. -/

namespace Sys2Proof.Machine

/-! ### Invariants -/

/-- A sparse list in its one form: indices strictly rising, and below a bound. -/
def Ordered {α : Type} (bound : Nat) (l : List (Nat × α)) : Prop := (l.map Prod.fst).Pairwise (· < ·) ∧ ∀ p ∈ l, p.1 < bound

/-- The Record Store's tables in their one form (R7, R9): equal tables are equal data. A way or an overflow entry that is sound is not listed
among those that are not. -/
def RecordStore.ordered (st : RecordStore) : Prop :=
  Ordered Config.nSlots st.slots ∧ Ordered (4 * Config.nBuckets) st.ways ∧ Ordered Config.nOverflow st.overflow ∧
    Ordered (4 * Config.nBuckets) st.wayHealth ∧ Ordered Config.nOverflow st.overflowHealth ∧
    (∀ p ∈ st.wayHealth, p.2 ≠ Health.sound) ∧ ∀ p ∈ st.overflowHealth, p.2 ≠ Health.sound

/-- The bounds of the queues (R33, R36, R53, R165): a request frame in reception has a place kept for its response. A queue that a reset under its
grant is about to purge may hold more than its four requests until then (R37; log entry 26). -/
def State.bounded (s : State) : Prop :=
  (∀ ch : Channel, (s.chan ch).queue.length ≤ Config.channelQueuePlaces ∨ s.purging ch = true) ∧ s.fieldPort.replies.length ≤ Config.replyPlaces ∧
    s.updateQueue.length ≤ Config.updateQueuePlaces ∧
    s.outstanding + (if s.plannerPort.rx.state = .hunt then 0 else 1) ≤ Config.responsePlaces

/-- The ranges of the age count, the divider and the parameters (R137(c), R186, R189). -/
def State.inRange (s : State) : Prop :=
  s.walker.ageCount ≤ 60 ∧ s.clock.divider < Config.minutePeriods ∧
    (s.control.params.ageInterval = 1 ∨ s.control.params.ageInterval = 5 ∨ s.control.params.ageInterval = 15 ∨
      s.control.params.ageInterval = 60) ∧
    (1 ≤ s.control.params.idleLimit ∧ s.control.params.idleLimit ≤ 60) ∧
    (1 ≤ s.control.params.gapLimit ∧ s.control.params.gapLimit ≤ 255)

/-- A notice queue in order (R171, R172, R173): at most 32 entries, no two the same notice, the attention line asserted exactly while an entry
is held, and the overflow flag set only then. -/
def ChannelState.noticesInOrder (c : ChannelState) : Prop :=
  c.notices.length ≤ Config.noticePlaces ∧ c.notices.Pairwise (fun a b => sameNotice a b = false) ∧
    c.attn = !c.notices.isEmpty ∧ (c.overflow = true → c.notices ≠ [])

/-- Every channel's notice queue in order. -/
def State.noticesInOrder (s : State) : Prop := ∀ ch : Channel, (s.chan ch).noticesInOrder

/-- The HALT line is asserted exactly in HALTED, and in HALTED there is no walk job, no due item and no comparison outstanding
(R40, R151, R185). -/
def State.haltInOrder (s : State) : Prop :=
  (s.control.haltLine = true ↔ s.control.condition = .halted) ∧
    (s.control.condition = .halted →
      s.walker.running = none ∧ s.walker.pendingRecal = none ∧ s.walker.pendingRescan = none ∧ s.walker.pendingAge = false ∧
        s.walker.ageHanded = false ∧ s.expiry.dueList = [] ∧ s.expiry.handedRoutes = none ∧ s.expiry.handedExports = none)

/-- In CONFIG no route is HELD, no deadline copy is present, no export is open and the Update Queue is empty (R182). -/
def State.configEmpty (s : State) : Prop :=
  s.control.condition = .config →
    (∀ i : RouteIdx, vget s.store.routes i = none ∧ vget s.expiry.deadlines i = none) ∧ (∀ ch : Channel, s.place ch = none) ∧
      s.updateQueue = []

/-- The rows held by the open exports. -/
def State.openRows (s : State) : Nat := ((List.finRange 8).map (fun ch => (rowsOf (s.place ch)).length)).sum

/-- The rows of the pool (R152, R153): the free rows and the rows of the open exports number 2,048, no export holds more than 512, and the free row
count read at the grant in progress is not more than the count as it stands. -/
def State.rowsBalance (s : State) : Prop :=
  s.exportUnit.freeRows + s.openRows = Config.poolRows ∧ (∀ ch : Channel, (rowsOf (s.place ch)).length ≤ 512) ∧
    match s.arbiter.store with
    | .granted g => g.freeRows ≤ s.exportUnit.freeRows
    | .idle => True

/-- The deadline copy of an index is present exactly while the entry is HELD, and equals its deadline (R132). -/
def State.deadlinesFollow (s : State) : Prop :=
  ∀ i : RouteIdx, vget s.expiry.deadlines i = (vget s.store.routes i).map Route.deadline

/-- The Walker runs a job with a qualifying slot ahead, or runs none and has none pending (R141, R146). -/
def State.walkerAtRest (s : State) : Prop :=
  match s.walker.running with
  | some j => (slotAhead s.store.slots j).isSome
  | none => s.walker.pendingRecal = none ∧ s.walker.pendingRescan = none ∧ s.walker.pendingAge = false

/-- Each users count is the number of records that name the profile (R70), and each zone's records counter the number of records that name the
zone (R93). -/
def State.countsAgree (s : State) : Prop :=
  (∀ p : ProfileNo, vget s.profiles.users p = s.store.slots.countP (fun x => x.2.key.profile == p)) ∧
    ∀ z : ZoneNo, (s.zone z).counters.records = s.store.slots.countP (fun x => x.2.key.zone == z)

/-- The ready lists in order (R93 to R95): a slot stands once, and in the list of its record's zone, exactly when its record is a ready member; a
member has a fill; no member stands before one that comes before it; and the ready members counter is the list's length. -/
def RecordStore.readyInOrder (st : RecordStore) : Prop :=
  ∀ z : ZoneNo,
    (vget st.zones z).readyList.Nodup ∧
      (∀ slot : Nat, slot ∈ (vget st.zones z).readyList ↔
        ∃ r, sfind slot st.slots = some r ∧ r.key.zone = z ∧ r.key.ready = true) ∧
      (∀ slot ∈ (vget st.zones z).readyList, ∃ r f, sfind slot st.slots = some r ∧ r.reading.fill = some f) ∧
      (vget st.zones z).readyList.Pairwise (fun a b => slotBefore st.slots b a = false) ∧
      (vget st.zones z).counters.readyMembers = (vget st.zones z).readyList.length

/-- The number of a zone's records that meet a test. -/
def RecordStore.countIn (st : RecordStore) (z : ZoneNo) (p : BinRecord → Bool) : Nat :=
  st.slots.countP (fun x => x.2.key.zone == z && p x.2)

/-- The urgent, claimed, silent, faulted and ten band counters of each zone are the numbers of its records that have the urgent flag, a claim, the
state SILENT, the state FAULTED, and each band copy (R93, Table 5.2). -/
def State.countersAgree (s : State) : Prop :=
  ∀ z : ZoneNo,
    (s.zone z).counters.urgent = s.store.countIn z (fun r => r.key.urgent) ∧
    (s.zone z).counters.claimed = s.store.countIn z (fun r => r.key.claim.isSome) ∧
    (s.zone z).counters.silent = s.store.countIn z (fun r => r.key.state == .silent) ∧
    (s.zone z).counters.faulted = s.store.countIn z (fun r => r.key.state == .faulted) ∧
    ∀ b : Fin 10, vget (s.zone z).counters.bands b = s.store.countIn z (fun r => r.key.band == some b)

/-- The index entries and the occupied slots agree (R9, R10, R12, R13): every registered bin number stands in exactly one index entry, in a way of its
bucket or in the overflow area, each entry names the slot of its bin's record, no two slots hold one bin number, and the overflow area holds an
entry only while the four ways of its bucket are occupied. -/
def RecordStore.indexAgrees (st : RecordStore) : Prop :=
  (st.ways.map (fun e => (e.2.bin, e.2.slot)) ++ st.overflow.map (fun e => (e.2.bin, e.2.slot))).Perm
      (st.slots.map (fun x => (x.2.key.bin, x.1))) ∧
    (st.slots.map (fun x => x.2.key.bin)).Nodup ∧
    (∀ e ∈ st.ways, e.1 / 4 = bucketOf e.2.bin) ∧
    ∀ e ∈ st.overflow, e.2.bucket = bucketOf e.2.bin ∧ ∀ i < 4, (sfind (4 * e.2.bucket + i) st.ways).isSome = true

/-- Claims and routes agree (R113, R115): a HELD route has a PENDING member, no bin twice, and a tag of its own among its owner's routes; a record is
claimed by a route exactly when that route lists its bin, with its slot, as a PENDING member. -/
def RecordStore.claimsAgree (st : RecordStore) : Prop :=
  (∀ i rt, vget st.routes i = some rt → anyPending rt.members = true ∧ (rt.members.map Member.bin).Nodup ∧
    ∀ m ∈ rt.members, m.state = .pending → ∃ r, sfind m.slot st.slots = some r ∧ r.key.bin = m.bin ∧ r.key.claim = some i) ∧
  (∀ i j rt ru, vget st.routes i = some rt → vget st.routes j = some ru → rt.owner = ru.owner → rt.tag = ru.tag → i = j) ∧
  ∀ slot r i, sfind slot st.slots = some r → r.key.claim = some i →
    ∃ rt, vget st.routes i = some rt ∧ ⟨r.key.bin, slot, .pending⟩ ∈ rt.members

/-- The fixed relations of a record's fields (R3, R6, R96, R98, R99). -/
structure BinRecord.related (r : BinRecord) : Prop where
  lastRaw : r.reading.lastRaw.isSome = true → r.reading.fill.isSome = true
  percent : ∀ f, r.reading.fill = some f → f.percent ≤ 100
  emptied : ∀ u, r.reading.emptiedTime = some u → ∃ f, r.reading.fill = some f ∧ u.toNat ≤ f.time.toNat
  fault : r.reading.faultCode.isSome = true ↔ r.key.state = .faulted
  ready : r.key.ready = true → r.key.claim = none ∧ (r.key.state = .live ∨ r.key.state = .silent) ∧ r.reading.fill.isSome = true
  urgent : r.key.urgent = true → r.reading.fill.isSome = true
  band : r.key.band = bandTest r
  poisoned : r.key.state = .poisoned →
    r.key.claim = none ∧ r.key.ready = false ∧ r.key.urgent = false ∧ r.key.band = none ∧
      r.reading = ⟨none, none, none, none, none, none, false, none, none⟩

/-- Every record's fields are so related. -/
def RecordStore.fieldsRelated (st : RecordStore) : Prop := ∀ slot r, sfind slot st.slots = some r → r.related

/-- The tables of the Record Store in order together: the premise under which each of these relations is kept. -/
structure State.tablesInOrder (s : State) : Prop where
  ordered : s.store.ordered
  index : s.store.indexAgrees
  claims : s.store.claimsAgree
  fields : s.store.fieldsRelated
  counts : s.countsAgree
  counters : s.countersAgree
  ready : s.store.readyInOrder

/-! ### Storage free of error -/

/-- No stored group or index entry is damaged. -/
def RecordStore.sound (st : RecordStore) : Prop :=
  st.wayHealth = [] ∧ st.overflowHealth = [] ∧ ∀ p ∈ st.slots, p.2.keyHealth = .sound ∧ p.2.readingHealth = .sound

/-- The slot of a bin number: the first of its bucket's ways that holds it, otherwise the first overflow entry that does (R10). -/
def RecordStore.locate (st : RecordStore) (b : BinNumber) : Option Nat :=
  match (waysOf (bucketOf b)).findSome? (wayHit st b) with
  | some p => some p.2
  | none => ((List.range Config.nOverflow).findSome? (overflowHit st b)).map Prod.snd

/-- The record of a bin number stands in a slot. -/
def RecordStore.holds (st : RecordStore) (b : BinNumber) (slot : Nat) (r : BinRecord) : Prop :=
  st.locate b = some slot ∧ sfind slot st.slots = some r

/-! ### When a command has its turn -/

/-- A store request is at the head of its channel's queue, its grant is in progress, and it passes the common checks (R29, R32, R168). No
comparison is outstanding. -/
structure StoreTurn (k : RequestKind) (ch : Channel) (rq : Request) (g : Grant) (s : State) : Prop where
  settled : s.settled = true
  head : (s.chan ch).queue.head? = some rq
  kind : rq.kind = requestCode k
  granted : s.arbiter.store = .granted g
  position : g.pos = posOf ch
  passes : commonRefusal k ch rq.body s.control.condition = none

/-- A channel-local request is at the head of its channel's queue and passes the common checks (R32, R168). -/
structure LocalTurn (k : RequestKind) (ch : Channel) (rq : Request) (s : State) : Prop where
  settled : s.settled = true
  head : (s.chan ch).queue.head? = some rq
  kind : rq.kind = requestCode k
  passes : commonRefusal k ch rq.body s.control.condition = none

/-- An entry is at the head of the Update Queue and its grant is in progress (R36). -/
structure EntryTurn (e : Entry) (g : Grant) (s : State) : Prop where
  settled : s.settled = true
  head : s.updateQueue.head? = some e
  granted : s.arbiter.store = .granted g
  position : g.pos = 0

/-- The Walker has its grant, and a slot is its next to visit (R142). -/
structure VisitTurn (j : Job) (slot : Nat) (g : Grant) (s : State) : Prop where
  settled : s.settled = true
  running : s.walker.running = some j
  ahead : slotAhead s.store.slots j = some slot
  granted : s.arbiter.store = .granted g
  position : g.pos = 9

/-- The Expiry Unit has its grant, and an item is the first of the due list (R134). -/
structure DueTurn (i : DueItem) (g : Grant) (s : State) : Prop where
  settled : s.settled = true
  head : s.expiry.dueList.head? = some i
  granted : s.arbiter.store = .granted g
  position : g.pos = 10

/-- The store IDLE. -/
def State.idled (s : State) : State := { s with arbiter := { s.arbiter with store := .idle } }

/-- A store request answered, its grant ended, and the arbiter's next look made (R27, R29, R34). -/
def State.finishStore (ch : Channel) (rq : Request) (code : RespCode) (body : List Byte) (s : State) : State :=
  (s.answer ch rq code body).idled.look

/-- A channel-local request answered, and the arbiter's look made (R27, R34). -/
def State.finishLocal (ch : Channel) (rq : Request) (code : RespCode) (body : List Byte) (s : State) : State :=
  (s.answer ch rq code body).look

/-- The command that executes a request of a kind on a channel. -/
def commandOf (k : RequestKind) (ch : Channel) : Instr :=
  match k with
  | .register => .register ch
  | .amend => .amend ch
  | .retire => .retire ch
  | .lookup => .lookup ch
  | .stageProfile => .stageProfile ch
  | .readProfile => .readProfile ch
  | .applyProfiles => .applyProfiles ch
  | .stageZone => .stageZone ch
  | .applyZone => .applyZone ch
  | .setZoneAttributes => .setZoneAttributes ch
  | .zoneSummary => .zoneSummary ch
  | .claim => .claim ch
  | .extend => .extend ch
  | .release => .release ch
  | .confirm => .confirm ch
  | .routeStatus => .routeStatus ch
  | .zoneExport => .zoneExport ch
  | .fetch => .fetch ch
  | .abortExport => .abortExport ch
  | .watch => .watch ch
  | .unwatch => .unwatch ch
  | .setNoticeMask => .setNoticeMask ch
  | .takeNotices => .takeNotices ch
  | .channelReset => .channelReset ch
  | .start => .start ch
  | .tableReset => .tableReset ch
  | .setClock => .setClock ch
  | .setParameters => .setParameters ch
  | .status => .status ch

/-- The command that applies an entry at the head of the Update Queue. -/
def entryCommand (e : Entry) : Instr :=
  match e.report with
  | .fill _ _ => .fillEntry
  | .emptied _ _ => .emptiedEntry
  | .fault _ _ => .faultEntry

/-- The command that makes a visit of a job. -/
def visitCommand (j : Job) : Instr :=
  match j.kind with
  | .age => .ageVisit
  | .recal _ => .recalVisit
  | .rescan _ => .rescanVisit

/-- A response to a request stands last in the response queue, the request has left its queue, and the other channel queues are as before. -/
structure Answered (ch : Channel) (rq : Request) (code : RespCode) (body : List Byte) (s t : State) : Prop where
  response : t.plannerPort.responses = s.plannerPort.responses ++ [responseTo ch rq code body]
  queues : ∀ c : Channel, (t.chan c).queue = if c = ch then (s.chan c).queue.tail else (s.chan c).queue

/-- The blocks that no granted operation on records writes: both receivers, the frame replies, the Export Unit, the clock, the masks of the
channels, the parameters, and both sets of profiles. -/
structure LinksAndSettingsKept (s t : State) : Prop where
  fieldPort : t.fieldPort = s.fieldPort
  rx : t.plannerPort.rx = s.plannerPort.rx
  exportUnit : t.exportUnit = s.exportUnit
  clock : t.clock = s.clock
  masks : ∀ c : Channel, (t.chan c).mask = (s.chan c).mask
  params : t.control.params = s.control.params
  active : t.profiles.active = s.profiles.active
  staged : t.profiles.staged = s.profiles.staged

/-- What a zone keeps when records of it change: its thresholds, attributes and watchers. -/
def ZoneSettingsKept (s t : State) : Prop :=
  ∀ z : ZoneNo, (t.zone z).active = (s.zone z).active ∧ (t.zone z).staged = (s.zone z).staged ∧
    (t.zone z).claimLock = (s.zone z).claimLock ∧ (t.zone z).noticeMute = (s.zone z).noticeMute ∧
    (t.zone z).watchers = (s.zone z).watchers

/-- Every record but that of one slot is as before. -/
def OtherRecordsKept (slot : Nat) (s t : State) : Prop := ∀ n : Nat, n ≠ slot → sfind n t.store.slots = sfind n s.store.slots

/-- The Bin Index is as before. -/
def IndexKept (s t : State) : Prop := t.store.ways = s.store.ways ∧ t.store.overflow = s.store.overflow

/-! ### Layouts written out a second time, for statements that compare -/

/-- A raw reading's three bytes: its resolution and its value (Table 11.3). -/
def readingBytes (r : RawReading) : List Byte := byte1 r.resolution ++ byte2 r.raw

/-- The bytes of a report entry (Table 11.3). -/
def entryBytes (e : Entry) : List Byte :=
  match e.report with
  | .fill r bat => byte1 1 ++ byte4 e.bin.toNat ++ byte4 e.time.toNat ++ readingBytes r ++ byte1 bat
  | .emptied u none => byte1 2 ++ byte4 e.bin.toNat ++ byte4 e.time.toNat ++ byte2 u.toNat ++ byte1 0
  | .emptied u (some r) => byte1 2 ++ byte4 e.bin.toNat ++ byte4 e.time.toNat ++ byte2 u.toNat ++ byte1 1 ++ readingBytes r
  | .fault c bat => byte1 3 ++ byte4 e.bin.toNat ++ byte4 e.time.toNat ++ byte1 c ++ byte1 bat

/-- The ranges of a reading (Table 3.4). -/
def RawReading.inRange (r : RawReading) : Prop := 8 ≤ r.resolution ∧ r.resolution ≤ 12 ∧ r.raw < 2 ^ r.resolution

/-- The ranges of an entry of a concentrator's frame (R51(d) to (g)). -/
def Entry.inRange (conc : Word16) (e : Entry) : Prop :=
  e.concentrator = conc ∧ 1 ≤ e.bin.toNat ∧ e.bin.toNat ≤ 4294967294 ∧
    match e.report with
    | .fill r bat => r.inRange ∧ bat ≤ 15
    | .emptied _ none => True
    | .emptied _ (some r) => r.inRange
    | .fault c bat => 1 ≤ c ∧ c ≤ 15 ∧ bat ≤ 15

/-- The length of the body of each request kind whose layout is of one length (Table 11.6); none for CLAIM, RELEASE and CONFIRM. -/
def fixedLength : RequestKind → Option Nat
  | .register => some 7
  | .amend => some 8
  | .retire => some 5
  | .lookup => some 4
  | .stageProfile => some 13
  | .readProfile => some 1
  | .applyZone => some 1
  | .zoneSummary => some 1
  | .watch => some 1
  | .unwatch => some 1
  | .stageZone => some 3
  | .setZoneAttributes => some 3
  | .claim => none
  | .extend => some 5
  | .release => none
  | .confirm => none
  | .routeStatus => some 1
  | .zoneExport => some 3
  | .fetch => some 1
  | .takeNotices => some 1
  | .setNoticeMask => some 2
  | .channelReset => some 1
  | .setClock => some 4
  | .setParameters => some 3
  | .applyProfiles => some 0
  | .abortExport => some 0
  | .start => some 0
  | .tableReset => some 0
  | .status => some 0

/-- A record as ready evaluation leaves it in a zone: its membership by the ready test, its urgent flag and its band (R96 to R99). -/
def evaluated (z : Zone) (r : BinRecord) : BinRecord :=
  { r with key := { r.key with ready := readyTest z r, urgent := urgentTest z r, band := bandTest r } }

/-- The members of a route after those of some bins have left PENDING (R114). -/
def membersAfter (st : MemberState) (leaves : BinNumber → Bool) (ms : List Member) : List Member :=
  ms.map (fun m => if m.state == .pending && leaves m.bin then { m with state := st } else m)

/-- A route entry when its members have become `ms`: HELD while one is PENDING, otherwise FREE (R113, R129). -/
def routeAfter (rt : Route) (ms : List Member) : Option Route := if anyPending ms then some { rt with members := ms } else none

/-- The reading group after an emptying measured at `t`: in full form when the record has no fill or its fill time is not later, otherwise in late
form (R60, R62, R63). -/
def readingAfterEmptying (p : Profile) (t : Minute) (residual : Option RawReading) (source : EmptiedBy) (r : ReadingGroup) : ReadingGroup :=
  if (match r.fill with | some f => decide (f.time.toNat ≤ t.toNat) | none => true) then
    { r with
      reportTime := laterReport t r.reportTime
      emptiedTime := some t
      emptiedBy := some source
      pending := none
      fill := some ⟨match residual with | some q => computeFill p (q.raw * 2 ^ (12 - q.resolution)) | none => 0, t⟩
      lastRaw := residual.map (fun q => q.raw * 2 ^ (12 - q.resolution)) }
  else { r with reportTime := laterReport t r.reportTime, emptiedTime := some t, emptiedBy := some source }

/-! ### Routes, for statements about several members -/

/-- Why a position of a CLAIM fails, the store being sound; `earlier` are the bin numbers at the positions before it (Table 6.5). -/
def claimReason (st : RecordStore) (earlier : List BinNumber) (b : BinNumber) : Option RefusalReason :=
  if b ∈ earlier then some .repeated
  else
    match (st.locate b).bind (fun slot => sfind slot st.slots) with
    | none => some .unknown
    | some r =>
      if r.key.state = .poisoned then some .poisoned
      else
        match r.key.claim with
        | some i => some (.claimed i (match vget st.routes i with | some rt => rt.owner | none => 0))
        | none => if (vget st.zones r.key.zone).claimLock then some .zoneLocked else none

/-- The refusal list of a CLAIM (R117). -/
def claimRefusals (st : RecordStore) (bins : List BinNumber) : List RefusalEntry :=
  bins.zipIdx.filterMap (fun p => (claimReason st (bins.take p.2) p.1).map (fun why => ⟨p.2 + 1, p.1, why⟩))

/-- The PENDING members of a route stand in good order (R114, R115): no bin twice, and each one's slot holds its bin's record, claimed by the
route and not POISONED. -/
def membersHeld (i : RouteIdx) (rt : Route) (s : State) : Prop :=
  (rt.members.map Member.bin).Nodup ∧
    ∀ m ∈ rt.members, m.state = .pending →
      ∃ r, sfind m.slot s.store.slots = some r ∧ r.key.bin = m.bin ∧ r.key.claim = some i ∧ r.key.state ≠ .poisoned

/-- Every route but that of one index is as before, and so is its deadline copy. -/
def OtherRoutesKept (i : RouteIdx) (s t : State) : Prop :=
  ∀ j : RouteIdx, j ≠ i → vget t.store.routes j = vget s.store.routes j ∧ vget t.expiry.deadlines j = vget s.expiry.deadlines j

/-- Whether the route at an index is held by a channel. -/
def State.ownedBy (s : State) (ch : Channel) (i : RouteIdx) : Bool :=
  match vget s.store.routes i with
  | some rt => rt.owner == ch
  | none => false

/-! ### Zones, for statements about one record -/

/-- The counters of a zone without one of its records (R18, R21(c), R93). -/
def ZoneCounters.less (r : BinRecord) (c : ZoneCounters) : ZoneCounters :=
  { records := c.records - 1
    readyMembers := c.readyMembers - r.key.ready.toNat
    urgent := c.urgent - r.key.urgent.toNat
    claimed := c.claimed - r.key.claim.isSome.toNat
    silent := c.silent - (r.key.state == .silent).toNat
    faulted := c.faulted - (r.key.state == .faulted).toNat
    bands := match r.key.band with | some b => vmod c.bands b (· - 1) | none => c.bands }

/-- The counters of a zone with one record more. -/
def ZoneCounters.plus (r : BinRecord) (c : ZoneCounters) : ZoneCounters :=
  { records := c.records + 1
    readyMembers := c.readyMembers + r.key.ready.toNat
    urgent := c.urgent + r.key.urgent.toNat
    claimed := c.claimed + r.key.claim.isSome.toNat
    silent := c.silent + (r.key.state == .silent).toNat
    faulted := c.faulted + (r.key.state == .faulted).toNat
    bands := match r.key.band with | some b => vmod c.bands b (· + 1) | none => c.bands }

/-- The zones when the record `r` of a slot has become `r'` in the same zone: its zone counts `r'` in place of `r`, the ready list holds the slot at
its place exactly when `r'` is a ready member (R93 to R97), and every other zone is as before. -/
def ZonesFollow (slot : Nat) (r r' : BinRecord) (s t : State) : Prop :=
  ∀ z : ZoneNo, t.zone z =
    if z = r.key.zone then
      { s.zone z with
        counters := ((s.zone z).counters.less r).plus r'
        readyList := if r'.key.ready = true then placeIn t.store.slots slot (takeOut slot (s.zone z).readyList)
          else takeOut slot (s.zone z).readyList }
    else s.zone z

/-! ### Notices, for statements that say to whom and in what order they are offered -/

/-- One copy of a notice for each channel. -/
def toEach (chs : List Channel) (n : Notice) : List (Channel × Notice) := chs.map (fun c => (c, n))

/-- A zone's watchers, ascending; none while its notice mute is set (R109, R110). -/
def Zone.watching (z : Zone) : List Channel := (List.finRange 8).filter (fun c => vget z.watchers c && !z.noticeMute)

/-- Channel 0, and a zone's watchers unless its notice mute is set, each once, ascending (R60, R109). -/
def Zone.zeroAndWatching (z : Zone) : List Channel := (List.finRange 8).filter (fun c => c == 0 || (vget z.watchers c && !z.noticeMute))

/-- Channel 0 and a zone's watchers whatever its notice mute, each once, ascending (R65, R109, R146, R192). -/
def Zone.zeroAndAll (z : Zone) : List Channel := (List.finRange 8).filter (fun c => c == 0 || vget z.watchers c)

/-- A notice keyed by a record's bin, with its zone and, as value, its fill when present (Table 9.3; log entry 10). -/
def about (k : NoticeKind) (r : BinRecord) (minute : Minute) : Notice :=
  ⟨k, some r.key.zone, none, some r.key.bin, minute, match r.reading.fill with | some f => some (.fill f.percent) | none => none⟩

/-- The same notice for a route's owner, naming the route (Table 9.3). -/
def aboutMember (k : NoticeKind) (i : RouteIdx) (r : BinRecord) (minute : Minute) : Notice :=
  ⟨k, some r.key.zone, some i, some r.key.bin, minute, match r.reading.fill with | some f => some (.fill f.percent) | none => none⟩

/-- The notices of the ready evaluation of a record `r` of zone `z` (R97, R98, R100, R109): READY or WITHDRAWN to the watchers, then URGENT to the
watchers or, for a claimed record, to the owner of its route. The claim form gives no WITHDRAWN. -/
def evaluationNotices (claimForm : Bool) (z : Zone) (routes : Vector (Option Route) 64) (minute : Minute) (r : BinRecord) :
    List (Channel × Notice) :=
  (if readyTest z r = true ∧ r.key.ready = false then toEach z.watching (about .ready r minute)
   else if readyTest z r = false ∧ r.key.ready = true ∧ claimForm = false then toEach z.watching (about .withdrawn r minute)
   else []) ++
  if urgentTest z r = true ∧ r.key.urgent = false then
    match r.key.claim with
    | none => toEach z.watching (about .urgent r minute)
    | some i =>
      match vget routes i with
      | some rt => [(rt.owner, aboutMember .urgent i r minute)]
      | none => []
  else []

/-- BATTERY_LOW when a record's battery low flag has gone from clear (in `r`) to set (in `r'`), to channel 0 and the watchers (R60). -/
def batteryNotices (z : Zone) (minute : Minute) (r r' : BinRecord) : List (Channel × Notice) :=
  if r.reading.batteryLow = false ∧ r'.reading.batteryLow = true then toEach z.zeroAndWatching (about .batteryLow r' minute) else []

/-- Whether a member is DONE. -/
def Member.isDone (m : Member) : Bool :=
  match m.state with
  | .done _ => true
  | .pending => false
  | .released => false
  | .lost => false

/-- ROUTE_ENDED of a route whose members stand as `ms` at its end, to its owner (R130, Table 9.3). -/
def endNotices (i : RouteIdx) (rt : Route) (ms : List Member) (st : EndStatus) (minute : Minute) : List (Channel × Notice) :=
  [(rt.owner, ⟨.routeEnded, none, some i, none, minute,
    some (.routeEnd rt.tag st (ms.countP Member.isDone) (ms.countP (fun m => m.state == .released)) (ms.countP (fun m => m.state == .lost)))⟩)]

/-- ROUTE_ENDED when no member is left PENDING: COMPLETE when every member is DONE, otherwise CLOSED (R129). -/
def lastMemberNotices (i : RouteIdx) (rt : Route) (ms : List Member) (minute : Minute) : List (Channel × Notice) :=
  if anyPending ms = true then [] else endNotices i rt ms (if ms.all Member.isDone = true then .complete else .closed) minute

/-- The notices of the hand-over of a member with done time `u`, the record then standing as `r` (R64, R127, R130): MEMBER_DONE to the owner, and the
ROUTE_ENDED of a route left without PENDING member. -/
def handOverNotices (routes : Vector (Option Route) 64) (i : RouteIdx) (u : Minute) (r : BinRecord) (minute : Minute) : List (Channel × Notice) :=
  match vget routes i with
  | some rt => (rt.owner, aboutMember .memberDone i r minute) ::
      lastMemberNotices i rt (membersAfter (.done u) (fun b => b == r.key.bin) rt.members) minute
  | none => []

/-- The notices of the records of some members, unclaimed and evaluated one after the other (R115, R124, R130). -/
def State.freedNotices (s : State) (ms : List Member) (minute : Minute) : List (Channel × Notice) :=
  ms.flatMap (fun m =>
    match sfind m.slot s.store.slots with
    | some r => evaluationNotices false (s.zone r.key.zone) s.store.routes minute { r with key := { r.key with claim := none } }
    | none => [])

/-- DEVICE_HALTED to every channel (R180(d)). -/
def haltNotices (minute : Minute) : List (Channel × Notice) := toEach (List.finRange 8) ⟨.deviceHalted, none, none, none, minute, none⟩

/-- RESCAN_DONE for each zone of a job set, ascending, to its watchers and to channel 0 (R146(b)). -/
def rescanNotices (zs : Vector Bool 64) (minute : Minute) (s : State) : List (Channel × Notice) :=
  ((List.finRange 64).filter (fun z => vget zs z)).flatMap (fun z => toEach (s.zone z).zeroAndAll ⟨.rescanDone, some z, none, none, minute, none⟩)

/-- RECAL_DONE to channel 0 (R146(a)). -/
def recalNotices (minute : Minute) : List (Channel × Notice) := [(0, ⟨.recalDone, none, none, none, minute, none⟩)]

/-- The notices `out` have been offered to the channels one by one in this order, and no others (R30, R170; what an offer does is R171). -/
structure Offered (out : List (Channel × Notice)) (s t : State) : Prop where
  channels : ∀ c : Channel, (t.chan c).notices = ((s.offerAll out).chan c).notices ∧
    (t.chan c).overflow = ((s.offerAll out).chan c).overflow ∧ (t.chan c).attn = ((s.offerAll out).chan c).attn
  dropped : t.count .noticesDropped = (s.offerAll out).count .noticesDropped

/-- No slot qualifying for the running job has been lost: the Walker completes no job at the end of the operation (R146). -/
def JobGoesOn (s t : State) : Prop := ∀ j, s.walker.running = some j → (slotAhead t.store.slots j).isSome = true

/-! ### Grants that meet damage -/

/-- The end of a grant whose reads have halted the device, the operation's work having come as far as `w` (R31, R40, R193): what it had done
stands, the condition is HALTED with the HALT line asserted, walk jobs and due list are dropped, and DEVICE_HALTED comes to every channel after
the notices given before. -/
structure HaltsWith (g : Grant) (w : Work) (s t : State) : Prop where
  store : t.store = w.store
  profiles : t.profiles = { s.profiles with users := w.users }
  deadlines : t.expiry.deadlines = w.deadlines
  counts : ∀ c : Counter, c ≠ .noticesDropped → t.count c = vget w.counters (counterIndex c)
  condition : t.control.condition = .halted
  line : t.control.haltLine = true
  jobs : t.walker.running = none ∧ t.walker.pendingRecal = none ∧ t.walker.pendingRescan = none ∧ t.walker.pendingAge = false
  dueList : t.expiry.dueList = []
  notices : Offered (w.out ++ haltNotices g.clock) s t

/-- A request answered HALTED with no body, its grant's reads having halted the device (R31). -/
structure HaltedAnswer (ch : Channel) (rq : Request) (g : Grant) (w : Work) (s t : State) : Prop where
  answered : Answered ch rq .halted [] s t
  updateQueue : t.updateQueue = s.updateQueue
  halts : HaltsWith g w s t

/-- The device has entered HALTED in a grant (R31, R40, R151, R180(d), R185, R193): the HALT line is asserted, walk jobs and due list are dropped, and
every channel that has DEVICE_HALTED enabled holds it with the grant's minute, or is overflowed. -/
structure EnteredHalted (g : Grant) (t : State) : Prop where
  line : t.control.haltLine = true
  jobs : t.walker.running = none ∧ t.walker.pendingRecal = none ∧ t.walker.pendingRescan = none ∧ t.walker.pendingAge = false
  dueList : t.expiry.dueList = []
  notices : ∀ c : Channel, (t.chan c).mask.getLsbD 15 = true →
    (t.chan c).overflow = true ∨ ∃ n ∈ (t.chan c).notices, n.kind = .deviceHalted ∧ n.minute = g.clock

/-- No outcome of an entry is counted (R31, R67). -/
def NoOutcomeCounted (s t : State) : Prop :=
  ∀ c ∈ ([.entriesApplied, .entriesHeld, .entriesStale, .entriesFuture, .entriesUnknown, .entriesPoisonedBin] : List Counter),
    t.count c = s.count c

/-- A record once poisoned (R6, R192): POISONED, unclaimed, out of its list and counted in no band, its reading group empty and sound. -/
def poisonedFrom (r : BinRecord) : BinRecord :=
  { key := { r.key with state := .poisoned, claim := none, ready := false, urgent := false, band := none }
    reading := ⟨none, none, none, none, none, none, false, none, none⟩
    keyHealth := .sound
    readingHealth := .sound }

/-- A record between the changes (a) to (c) of its poisoning and the ready evaluation of (d) (R192). -/
def poisonedUnevaluated (r : BinRecord) : BinRecord :=
  { r with key := { r.key with state := .poisoned, claim := none },
           reading := ⟨none, none, none, none, none, none, false, none, none⟩, readingHealth := .sound }

/-- The notices of the poisoning of a record `r` of zone `z` (R192): MEMBER_LOST and, when `ends`, the ROUTE_ENDED of a route left without PENDING
member, then those of the ready evaluation, then POISONED to channel 0 and the watchers. -/
def poisonNotices (ends : Bool) (z : Zone) (routes : Vector (Option Route) 64) (minute : Minute) (r : BinRecord) : List (Channel × Notice) :=
  (match r.key.claim with
   | none => []
   | some i =>
     match vget routes i with
     | none => []
     | some rt =>
       (rt.owner, aboutMember .memberLost i (poisonedUnevaluated r) minute) ::
         if ends = true then lastMemberNotices i rt (membersAfter .lost (fun b => b == r.key.bin) rt.members) minute else []) ++
  evaluationNotices false z routes minute (poisonedUnevaluated r) ++
  toEach z.zeroAndAll (about .poisoned (poisonedUnevaluated r) minute)

/-- A read under a grant has poisoned the record `r` of a slot (R192): the record, and with it its member, its route and its notices; every other record,
route and deadline copy is as before. -/
structure PoisonedBy (slot : Nat) (r : BinRecord) (g : Grant) (s t : State) : Prop where
  record : sfind slot t.store.slots = some (poisonedFrom r)
  others : OtherRecordsKept slot s t
  condition : t.control.condition = s.control.condition
  route : ∀ (i : RouteIdx) (rt : Route), r.key.claim = some i → vget s.store.routes i = some rt →
    vget t.store.routes i = routeAfter rt (membersAfter .lost (fun b => b == r.key.bin) rt.members) ∧
    vget t.expiry.deadlines i =
      if anyPending (membersAfter .lost (fun b => b == r.key.bin) rt.members) then vget s.expiry.deadlines i else none
  routes : ∀ j : RouteIdx, r.key.claim ≠ some j →
    vget t.store.routes j = vget s.store.routes j ∧ vget t.expiry.deadlines j = vget s.expiry.deadlines j
  notices : s.walkerAtRest → JobGoesOn s t → Offered (poisonNotices true (s.zone r.key.zone) s.store.routes g.clock r) s t

/-! ### Releases, exports and claims that meet damage -/

/-- The reading group of the record in a slot is damaged beyond correction. -/
def RecordStore.readingLost (st : RecordStore) (slot : Nat) : Bool :=
  match sfind slot st.slots with
  | some r => r.readingHealth == .double
  | none => false

/-- No record in some slots has its key group damaged beyond correction: their reads do not halt the device (R193). -/
def RecordStore.keysReadable (st : RecordStore) (slots : List Nat) : Prop :=
  ∀ slot ∈ slots, ∀ r, sfind slot st.slots = some r → r.keyHealth ≠ .double

/-- A record once read and released (R115, R123, R191): corrected, unclaimed and evaluated; poisoned by a read that finds its reading group lost. -/
def releasedFrom (z : Zone) (r : BinRecord) : BinRecord :=
  if r.readingHealth = .double then poisonedFrom r
  else evaluated z { r with key := { r.key with claim := none }, keyHealth := .sound, readingHealth := .sound }

/-- The members of a route after some of them have been taken (R123): RELEASED, or LOST where the read has poisoned the record. -/
def membersTaken (st : RecordStore) (taken ms : List Member) : List Member :=
  ms.map (fun m => if taken.contains m then { m with state := if st.readingLost m.slot then .lost else .released } else m)

/-- The notices of members taken (R124, R130, R178): those of the evaluations of the released records, in the order they are taken, then those of
the poisonings met, in the same order; a ROUTE_ENDED stands where the operation's own rule places it. -/
def State.releaseNotices (s : State) (taken : List Member) (minute : Minute) : List (Channel × Notice) :=
  s.freedNotices (taken.filter (fun m => !s.store.readingLost m.slot)) minute ++
    (taken.filter (fun m => s.store.readingLost m.slot)).flatMap (fun m =>
      match sfind m.slot s.store.slots with
      | some r => poisonNotices false (s.zone r.key.zone) s.store.routes minute r
      | none => [])

/-- The records of some members have been released or poisoned, their zones' claimed counters lowered, and every other record is as before (R115,
R123, R192). -/
structure MembersFreed (taken : List Member) (s t : State) : Prop where
  freed : ∀ m ∈ taken, ∀ r, sfind m.slot s.store.slots = some r →
    sfind m.slot t.store.slots = some (releasedFrom (s.zone r.key.zone) r)
  others : ∀ n : Nat, (∀ m ∈ taken, m.slot ≠ n) → sfind n t.store.slots = sfind n s.store.slots
  claimed : ∀ z : ZoneNo, (t.zone z).counters.claimed = (s.zone z).counters.claimed -
    taken.countP (fun m => match sfind m.slot s.store.slots with | some r => r.key.zone == z | none => false)

/-- A release of route `i`, whose entry is `rt`, has halted the device at the record in `slot`, the members `taken` having been taken before (R193): they stay in
their new state, the route stays HELD with its deadline, and DEVICE_HALTED follows the notices given before. -/
structure ReleaseHalted (i : RouteIdx) (rt : Route) (taken : List Member) (slot : Nat) (g : Grant) (s t : State) : Prop where
  condition : t.control.condition = .halted
  entered : EnteredHalted g t
  route : vget t.store.routes i = some { rt with members := membersTaken s.store taken rt.members }
  deadline : vget t.expiry.deadlines i = vget s.expiry.deadlines i
  routes : OtherRoutesKept i s t
  freed : ∀ m ∈ taken, ∀ r, sfind m.slot s.store.slots = some r →
    sfind m.slot t.store.slots = some (releasedFrom (s.zone r.key.zone) r)
  others : ∀ n : Nat, n ≠ slot → (∀ m ∈ taken, m.slot ≠ n) → sfind n t.store.slots = sfind n s.store.slots
  notices : Offered (s.releaseNotices taken g.clock ++ haltNotices g.clock) s t

/-- The PENDING members of the routes a channel holds, by ascending route index and in member order; none in HALTED (R131, R178(d), R179). -/
def State.resetMembers (s : State) (target : Channel) : List Member :=
  if s.control.condition = .halted then [] else
    (List.finRange 64).flatMap (fun i =>
      match vget s.store.routes i with
      | some rt => if rt.owner = target then rt.members.filter (fun m => m.state == .pending) else []
      | none => [])

/-- The work `w` of a grant that did not halt the device stands whole: its tables, its counts and its notices (R30). -/
structure WorkStands (w : Work) (s t : State) : Prop where
  store : t.store = w.store
  profiles : t.profiles = { s.profiles with users := w.users }
  deadlines : t.expiry.deadlines = w.deadlines
  counts : ∀ c : Counter, c ≠ .noticesDropped → t.count c = vget w.counters (counterIndex c)
  condition : t.control.condition = s.control.condition
  updateQueue : t.updateQueue = s.updateQueue
  notices : Offered w.out s t

/-- The checked reads of the records of an EXPORT, in row order; a halt ends them (R157). -/
def exportReads (slots : List Nat) (w : Work) : Work :=
  slots.foldl (fun w slot => if w.halting = true then w else readGroups true slot w) w

/-- The row of a record (R156), POISONED and without reading when its reads have poisoned it (R157). -/
def exportedRow (slot : Nat) (r : BinRecord) : ExportRow :=
  if r.readingHealth = .double then
    { bin := r.key.bin, slot := slot, zone := r.key.zone, kind := r.key.kind, state := .poisoned, fill := none, urgent := false, batteryLow := false }
  else
    { bin := r.key.bin, slot := slot, zone := r.key.zone, kind := r.key.kind, state := r.key.state, fill := r.reading.fill,
      urgent := r.key.urgent, batteryLow := r.reading.batteryLow }

/-- The checked reads of a CLAIM (R117, R118): each position whose bin number does not stand at an earlier one is looked up, and both groups of
a record found are read; a halt ends them. -/
def claimReads (bins : List BinNumber) (w : Work) : Work :=
  bins.zipIdx.foldl (fun w p =>
    if w.halting = true ∨ p.1 ∈ bins.take p.2 then w
    else
      let l := lookupBin p.1 w
      if l.1.halting = true then l.1
      else
        match l.2 with
        | some (_, slot) => readGroups true slot l.1
        | none => l.1) w

/-- The place of a bin number's index entry: the first of its bucket's ways that holds it, otherwise the first overflow entry that does (R10). -/
def RecordStore.placeOf (st : RecordStore) (b : BinNumber) : Option IndexPlace :=
  match (waysOf (bucketOf b)).findSome? (wayHit st b) with
  | some p => some (.way p.1)
  | none => ((List.range Config.nOverflow).findSome? (overflowHit st b)).map (fun p => .overflow p.1)

/-! ### Request bodies in their ranges -/

/-- The range of a bin number (R1). -/
def inBinRange (b : BinNumber) : Prop := 1 ≤ b.toNat ∧ b.toNat ≤ 4294967294

/-- A bin list as sent: four bytes for each bin number, as many as the count, each in its range. -/
def isBinList (n : Byte) (rest : List Byte) : Prop :=
  ∃ bins : List BinNumber, rest = bins.flatMap (fun b => byte4 b.toNat) ∧ bins.length = n.toNat ∧ ∀ b ∈ bins, inBinRange b

/-- The body of a request has its layout's length and every value in its range (R14, R15(a), R17(a), R20(a), R23, R71(a), R73, R103, R104, R107, R111,
R116(b), R121 to R123, R125, R126(a), R154(b), R159, R172, R174 to R177, R186, R190, R196; Tables 11.6 and 11.7). -/
def bodyInRange : RequestKind → List Byte → Prop
  | .register, body => ∃ a b c d k z p, body = [a, b, c, d, k, z, p] ∧ inBinRange (be32 a b c d) ∧ k.toNat ≤ 3 ∧ z.toNat ≤ 63 ∧ p.toNat ≤ 31
  | .amend, body => ∃ a b c d f k z p, body = [a, b, c, d, f, k, z, p] ∧ inBinRange (be32 a b c d) ∧
      (f.getLsbD 0 = true ∨ f.getLsbD 1 = true ∨ f.getLsbD 2 = true) ∧ (f.getLsbD 0 = true → k.toNat ≤ 3) ∧
      (f.getLsbD 1 = true → z.toNat ≤ 63) ∧ (f.getLsbD 2 = true → p.toNat ≤ 31)
  | .retire, body => ∃ a b c d f, body = [a, b, c, d, f] ∧ inBinRange (be32 a b c d) ∧ f.toNat ≤ 1
  | .lookup, body => ∃ a b c d, body = [a, b, c, d] ∧ inBinRange (be32 a b c d)
  | .stageProfile, body => ∃ p cls e1 e0 f1 f0 j w1 w0 d s1 s0 l, body = [p, cls, e1, e0, f1, f0, j, w1, w0, d, s1, s0, l] ∧
      p.toNat ≤ 31 ∧ cls.toNat ≤ 1 ∧ (be16 e1 e0).toNat ≤ 4095 ∧ (be16 f1 f0).toNat ≤ 4095
  | .readProfile, body => ∃ p, body = [p] ∧ p.toNat ≤ 31
  | .applyProfiles, body => body = []
  | .stageZone, body => ∃ z c u, body = [z, c, u] ∧ z.toNat ≤ 63
  | .applyZone, body => ∃ z, body = [z] ∧ z.toNat ≤ 63
  | .setZoneAttributes, body => ∃ z l m, body = [z, l, m] ∧ z.toNat ≤ 63 ∧ l.toNat ≤ 1 ∧ m.toNat ≤ 1
  | .zoneSummary, body => ∃ z, body = [z] ∧ z.toNat ≤ 63
  | .claim, body => ∃ t1 t0 h1 h0 n rest, body = t1 :: t0 :: h1 :: h0 :: n :: rest ∧ 1 ≤ (be16 h1 h0).toNat ∧ (be16 h1 h0).toNat ≤ 1440 ∧
      1 ≤ n.toNat ∧ n.toNat ≤ 32 ∧ isBinList n rest
  | .extend, body => ∃ r t1 t0 m1 m0, body = [r, t1, t0, m1, m0] ∧ r.toNat ≤ 63 ∧ 1 ≤ (be16 m1 m0).toNat ∧ (be16 m1 m0).toNat ≤ 1440
  | .release, body => ∃ r t1 t0 n rest, body = r :: t1 :: t0 :: n :: rest ∧ r.toNat ≤ 63 ∧ n.toNat ≤ 32 ∧ isBinList n rest
  | .confirm, body => ∃ r t1 t0 a b c d m3 m2 m1 m0 flag rest, body = r :: t1 :: t0 :: a :: b :: c :: d :: m3 :: m2 :: m1 :: m0 :: flag :: rest ∧
      r.toNat ≤ 63 ∧ inBinRange (be32 a b c d) ∧
      ((flag.toNat = 0 ∧ rest = []) ∨
        flag.toNat = 1 ∧ ∃ res hi lo, rest = [res, hi, lo] ∧ RawReading.inRange ⟨res.toNat, (be16 hi lo).toNat⟩)
  | .routeStatus, body => ∃ r, body = [r] ∧ r.toNat ≤ 63
  | .zoneExport, body => ∃ z m1 m0, body = [z, m1, m0] ∧ z.toNat ≤ 63 ∧ 1 ≤ (be16 m1 m0).toNat ∧ (be16 m1 m0).toNat ≤ 512
  | .fetch, body => ∃ n, body = [n] ∧ 1 ≤ n.toNat ∧ n.toNat ≤ 16
  | .abortExport, body => body = []
  | .watch, body => ∃ z, body = [z] ∧ z.toNat ≤ 63
  | .unwatch, body => ∃ z, body = [z] ∧ z.toNat ≤ 63
  | .setNoticeMask, body => body.length = 2
  | .takeNotices, body => ∃ n, body = [n] ∧ 1 ≤ n.toNat ∧ n.toNat ≤ 8
  | .channelReset, body => ∃ c, body = [c] ∧ c.toNat ≤ 7
  | .start, body => body = []
  | .tableReset, body => body = []
  | .setClock, body => body.length = 4
  | .setParameters, body => ∃ a i l, body = [a, i, l] ∧ a.toNat ∈ [1, 5, 15, 60] ∧ 1 ≤ i.toNat ∧ i.toNat ≤ 60 ∧ 1 ≤ l.toNat
  | .status, body => body = []

end Sys2Proof.Machine
end

