-- ==== Sys2Proof/Certificates/Slice0/Obligations.lean ====
section
/-! DEFINITION. The statements for the provers. Each docstring names the rules of the manual that the statement rests on. -/

open Sys2Proof Sys2Proof.Machine

/-! ### The queue of commands, power-on, and what every command keeps -/

/-- A step with a command waiting is that command's effect on the device with the rest of the queue (the model's queue, log entry 21). -/
def Obligations.StepRunsFrontCommand : Prop :=
  ∀ (c : Instr) (rest : List Instr) (s : State), s.pending = c :: rest → step s = exec c { s with pending := rest }

/-- With no command waiting one period of REFCLK passes (R189; that a period is what an idle step does is the model's choice, log entry 5, and the
storage damage it may bring is the free value of log entry 6). -/
def Obligations.IdleStepIsOnePeriod : Prop :=
  ∀ s : State, s.pending = [] → s.settled = true →
    ∃ t, step s = .next t ∧
      t.clock = (if s.clock.divider + 1 < 1966080 then { s.clock with divider := s.clock.divider + 1 }
        else if s.clock.minute = 0xFFFFFFFF#32 then { s.clock with divider := 0 }
        else { minute := s.clock.minute + 1#32, divider := 0 }) ∧
      t.pending = [] ∧ t.freeCount = s.freeCount + 1 ∧ t.fieldPort = s.fieldPort ∧ t.updateQueue = s.updateQueue ∧
      t.plannerPort = s.plannerPort ∧ t.channels = s.channels ∧ t.profiles = s.profiles ∧ t.exportUnit = s.exportUnit ∧
      t.control = s.control ∧ t.store.zones = s.store.zones ∧ t.store.routes = s.store.routes ∧ IndexKept s t

/-- No command faults or is refused, and none touches the queue of commands or the count of free values. That a command out of its turn is answered with a
next state too (log entry 1), that commands wait in a queue (log entry 21), and that POWER_ON keeps that queue and the count (log entry 25) are the model's
choices. -/
def Obligations.EveryCommandCompletes : Prop :=
  ∀ (c : Instr) (s : State), ∃ t, exec c s = .next t ∧ t.pending = s.pending ∧ t.freeCount = s.freeCount

/-- POWER_ON puts every block in its power-on state (R24(a), R25, R41, R42, R89(a), R112(a), R136(a), R137, R152, R180(a), R182, R186, R188, R189),
and the state after reset is that state. -/
def Obligations.PowerOnState : Prop :=
  exec .powerOn State.reset = .next State.reset ∧
  ∀ s : State, ∃ t, exec .powerOn s = .next t ∧
    t.control = { condition := .config, haltLine := false, params := { ageInterval := 15, idleLimit := 10, gapLimit := 20 },
                  counters := Vector.replicate 24 0 } ∧
    t.clock = { minute := 0, divider := 0 } ∧ t.arbiter = { pointer := 0, store := .idle } ∧
    t.fieldPort.rx = { state := .hunt, candidate := false, len := [], body := [], crc := [], gap := none } ∧
    t.fieldPort.replies = [] ∧ t.updateQueue = [] ∧
    t.plannerPort.rx.state = .hunt ∧ t.plannerPort.rx.candidate = false ∧ t.plannerPort.rx.body = [] ∧ t.plannerPort.responses = [] ∧
    (∀ ch : Channel, t.chan ch = { queue := [], notices := [], overflow := false, mask := 0xFFFF#16, attn := false }) ∧
    t.store.slots = [] ∧ t.store.ways = [] ∧ t.store.overflow = [] ∧
    (∀ z : ZoneNo, t.zone z =
      ⟨⟨80, 95⟩, ⟨80, 95⟩, false, false, Vector.replicate 8 false, false, [], ⟨0, 0, 0, 0, 0, 0, Vector.replicate 10 0⟩⟩) ∧
    (∀ i : RouteIdx, vget t.store.routes i = none ∧ vget t.expiry.deadlines i = none) ∧ t.expiry.dueList = [] ∧
    (∀ p : ProfileNo, vget t.profiles.active p = ⟨.litter, 0, 0, 1, 1, 1, 10, 0⟩ ∧
      vget t.profiles.staged p = ⟨.litter, 0, 0, 1, 1, 1, 10, 0⟩ ∧ vget t.profiles.users p = 0) ∧
    t.walker.running = none ∧ t.walker.pendingRecal = none ∧ t.walker.pendingRescan = none ∧ t.walker.pendingAge = false ∧
    t.walker.ageCount = 0 ∧ t.exportUnit.freeRows = 2048 ∧ ∀ ch : Channel, t.place ch = none

/-! ### Invariants -/

/-- The invariants of Safety.lean hold right after reset. -/
def Obligations.InvariantsHoldAtReset : Prop :=
  State.reset.bounded ∧ State.reset.inRange ∧ State.reset.noticesInOrder ∧ State.reset.haltInOrder ∧ State.reset.configEmpty ∧
    State.reset.rowsBalance ∧ State.reset.store.ordered ∧ State.reset.deadlinesFollow ∧ State.reset.walkerAtRest ∧
    State.reset.countsAgree ∧ State.reset.store.readyInOrder ∧ State.reset.tablesInOrder ∧ State.reset.expiry.dueList.Nodup

/-- Every step keeps the queues within their places and the counts and parameters within their ranges (R33, R36, R53, R137, R165, R186, R189). A channel queue
that a reset under its grant is about to purge may hold more than four requests until then (R37; log entry 26), and the age count's bound is that of
log entry 25. -/
def Obligations.QueuesAndCountsStayBounded : Prop :=
  (∀ s t : State, s.bounded → step s = .next t → t.bounded) ∧ ∀ s t : State, s.inRange → step s = .next t → t.inRange

/-- Every step keeps the notice queues, overflow flags and attention lines in order (R171 to R173). -/
def Obligations.NoticeQueuesStayInOrder : Prop := ∀ s t : State, s.noticesInOrder → step s = .next t → t.noticesInOrder

/-- Every step keeps the HALT line equal to the condition HALTED, HALTED without walk jobs and due items (R40, R151, R185), and CONFIG without routes,
exports and queued entries (R182). A command that halts the device (R31, R193) asserts HALT, drops the walk jobs and the due list and leaves DEVICE_HALTED for
every channel (R180(d)); a store request that does so leaves its queue with the response HALTED and no body, and an entry leaves the Update Queue counted under no
outcome. -/
def Obligations.HaltedAndConfigStayQuiet : Prop :=
  (∀ s t : State, s.haltInOrder → step s = .next t → t.haltInOrder) ∧ (∀ s t : State, s.configEmpty → step s = .next t → t.configEmpty) ∧
  ∀ (c : Instr) (g : Grant) (s t : State), s.settled = true → s.arbiter.store = .granted g → s.control.condition ≠ .halted →
    exec c s = .next t → t.control.condition = .halted →
    EnteredHalted g t ∧
    (∀ (k : RequestKind) (ch : Channel) (rq : Request), c = commandOf k ch → (s.chan ch).queue.head? = some rq →
      t.plannerPort.responses.getLast? = some (responseTo ch rq .halted []) ∧ (k ≠ .channelReset → Answered ch rq .halted [] s t)) ∧
    (∀ e : Entry, c = entryCommand e → t.updateQueue = s.updateQueue.tail ∧ NoOutcomeCounted s t)

/-- Every step keeps the pool's 2,048 rows accounted for (R152, R153). -/
def Obligations.ExportRowsStayBalanced : Prop := ∀ s t : State, s.rowsBalance → step s = .next t → t.rowsBalance

/-- Every step keeps the Slot Table and the Bin Index in their one form (R7, R9), and, the tables of the Record Store being in order together, every bin number in
exactly one index entry that names its record's slot (R9, R12, R13) and the fields of every record in their fixed relations (R3, R6, R96, R98, R99). -/
def Obligations.TablesStayOrdered : Prop :=
  (∀ s t : State, s.store.ordered → step s = .next t → t.store.ordered) ∧
  ∀ s t : State, s.tablesInOrder → step s = .next t → t.store.indexAgrees ∧ t.store.fieldsRelated

/-- Every step keeps the deadline copies equal to the deadlines of the HELD routes (R132), the due list free of repetition (R133, R161), and, the tables of the
Record Store being in order together, every HELD route with a PENDING member and a record claimed exactly when one HELD route lists it as PENDING
(R113, R115). -/
def Obligations.DeadlineCopiesFollowRoutes : Prop :=
  (∀ s t : State, s.deadlinesFollow → step s = .next t → t.deadlinesFollow) ∧
  (∀ s t : State, s.expiry.dueList.Nodup → step s = .next t → t.expiry.dueList.Nodup) ∧
  ∀ s t : State, s.tablesInOrder → step s = .next t → t.store.claimsAgree

/-- After every step the Walker runs a job with a slot ahead, or has no job at all (R141, R146). -/
def Obligations.WalkerStaysAtRest : Prop := ∀ s t : State, s.walkerAtRest → step s = .next t → t.walkerAtRest

/-- Every step keeps the users counts and the zones' records counters equal to what they count (R70, R93), and, the tables of the Record Store being in order
together, the urgent, claimed, silent, faulted and ten band counters of every zone too (R93, Table 5.2; the ready members counter is in
ReadyListsStayInUrgencyOrder). -/
def Obligations.CountsStayInAgreement : Prop :=
  (∀ s t : State, s.store.ordered → s.countsAgree → step s = .next t → t.countsAgree) ∧
  ∀ s t : State, s.tablesInOrder → step s = .next t → t.countersAgree

/-- Every step keeps every ready list in urgency order, with exactly its zone's ready members (R93 to R97). -/
def Obligations.ReadyListsStayInUrgencyOrder : Prop :=
  ∀ s t : State, s.store.ordered → s.store.readyInOrder → step s = .next t → t.store.readyInOrder

/-! ### The links -/

/-- A byte received on the field link in HUNT (R43): a marker's first byte sets or keeps the candidate, its second byte opens a frame, and any other
byte is discarded. The gap timer is started at a byte that leaves the candidate set or a frame in reception (R46). -/
def Obligations.FieldByteInHunt : Prop :=
  ∀ (b : Byte) (s : State), s.settled = true → s.fieldPort.rx.state = .hunt →
    exec (.byteReceived .field b) s = .next
      (s.setRx .field
        (if s.fieldPort.rx.candidate = true ∧ b = 0x91#8 then
          { state := .header, candidate := false, len := [], body := [], crc := [], gap := some s.control.params.gapLimit }
        else if b = 0xD3#8 then
          { state := .hunt, candidate := true, len := [], body := [], crc := [], gap := some s.control.params.gapLimit }
        else { state := .hunt, candidate := false, len := [], body := [], crc := [], gap := none })).look

/-- A byte received on the planner link in HUNT, its marker taken only while W + Q is below 40 (R164(a), (d), R165); and a byte stored in HEADER, BODY or
CHECK on either link (R44, R45, R164), the gap timer started anew with the limit in force (R46). A byte that brings an outcome with a command of its own (a
second length byte out of bounds, a second CRC byte, a marker ignored) has that command's effect, which is the model's choice (log entry 8). -/
def Obligations.PlannerHuntAndFrameBytes : Prop :=
  (∀ (b : Byte) (s : State), s.settled = true → s.plannerPort.rx.state = .hunt →
    ¬ (s.plannerPort.rx.candidate = true ∧ b = 0x92#8 ∧ 40 ≤ s.outstanding) →
    exec (.byteReceived .planner b) s = .next
      (s.setRx .planner
        (if s.plannerPort.rx.candidate = true ∧ b = 0x92#8 then
          { state := .header, candidate := false, len := [], body := [], crc := [], gap := some s.control.params.gapLimit }
        else if b = 0xD3#8 then
          { state := .hunt, candidate := true, len := [], body := [], crc := [], gap := some s.control.params.gapLimit }
        else { state := .hunt, candidate := false, len := [], body := [], crc := [], gap := none })).look) ∧
  (∀ (l : Link) (b : Byte) (s : State), s.settled = true →
    ((s.rx l).state = .header → (s.rx l).len = [] →
      exec (.byteReceived l b) s = .next
        (s.setRx l { s.rx l with len := [b], gap := some s.control.params.gapLimit }).look) ∧
    (∀ hi : Byte, (s.rx l).state = .header → (s.rx l).len = [hi] →
      (match l with
        | .field => 15 ≤ (be16 hi b).toNat ∧ (be16 hi b).toNat ≤ 244
        | .planner => 4 ≤ (be16 hi b).toNat ∧ (be16 hi b).toNat ≤ 164) →
      exec (.byteReceived l b) s = .next
        (s.setRx l { s.rx l with state := .body, len := [hi, b], gap := some s.control.params.gapLimit }).look) ∧
    (∀ hi lo : Byte, (s.rx l).state = .body → (s.rx l).len = [hi, lo] →
      exec (.byteReceived l b) s = .next
        (s.setRx l { s.rx l with
          state := if (be16 hi lo).toNat ≤ (s.rx l).body.length + 1 then .check else .body
          body := (s.rx l).body ++ [b], gap := some s.control.params.gapLimit }).look) ∧
    ((s.rx l).state = .check → (s.rx l).crc = [] →
      exec (.byteReceived l b) s = .next
        (s.setRx l { s.rx l with crc := [b], gap := some s.control.params.gapLimit }).look)) ∧
  ∀ (b : Byte) (s : State), s.settled = true →
    (∀ hi : Byte, s.fieldPort.rx.state = .header → s.fieldPort.rx.len = [hi] → ((be16 hi b).toNat < 15 ∨ 244 < (be16 hi b).toNat) →
      exec (.byteReceived .field b) s = exec (.fieldLengthRefusal b) s) ∧
    (∀ hi : Byte, s.plannerPort.rx.state = .header → s.plannerPort.rx.len = [hi] → ((be16 hi b).toNat < 4 ∨ 164 < (be16 hi b).toNat) →
      exec (.byteReceived .planner b) s = exec (.requestLengthRefusal b) s) ∧
    (∀ c : Byte, s.fieldPort.rx.state = .check → s.fieldPort.rx.crc = [c] →
      exec (.byteReceived .field b) s = exec (.fieldFrameComplete b) s) ∧
    (∀ c : Byte, s.plannerPort.rx.state = .check → s.plannerPort.rx.crc = [c] →
      exec (.byteReceived .planner b) s = exec (.requestFrameComplete b) s) ∧
    (s.plannerPort.rx.state = .hunt → s.plannerPort.rx.candidate = true → b = 0x92#8 → 40 ≤ s.outstanding →
      exec (.byteReceived .planner b) s = exec (.markerIgnored b) s)

/-- A field frame's second CRC byte: the frame is checked in the order of Table 3.3 and answered (R45, R49, R52 to R54); a reply is queued while the
reply queue holds fewer than four, and otherwise discarded and counted (R53). -/
def Obligations.FieldFrameChecked : Prop :=
  (∀ (b c : Byte) (s : State), s.settled = true → s.fieldPort.rx.state = .check → s.fieldPort.rx.crc = [c] →
    exec (.fieldFrameComplete b) s = .next (State.look
      (let r := s.fieldPort.rx
       let s0 := s.setRx .field Receiver.idle
       if crc16 (r.len ++ r.body) ≠ be16 c b then (s0.bump .framesCrcError).reply (r.body.getD 2 0#8) .crcError
       else if s.control.condition ≠ .running then (s0.bump .framesNotRunning).reply (r.body.getD 2 0#8) .notRunning
       else match decodeFieldBody r.body with
         | none => (s0.bump .framesFormat).reply (r.body.getD 2 0#8) .format
         | some es =>
           if 64 - s.updateQueue.length < es.length then (s0.bump .framesFull).reply (r.body.getD 2 0#8) .full
           else ({ s0 with updateQueue := s.updateQueue ++ es }.bump .framesAccepted).reply (r.body.getD 2 0#8) .accepted))) ∧
  ∀ (s : State) (n : Byte) (st : FrameStatus),
    s.reply n st =
      if s.fieldPort.replies.length < 4 then
        { s with fieldPort := { s.fieldPort with replies := s.fieldPort.replies ++ [⟨n, st, 64 - s.updateQueue.length⟩] } }
      else s.bump .repliesDiscarded

/-- A field frame's body is decoded exactly when it is the layout of 1 to 16 entries, each in its ranges, and the entries decoded are those laid
out (R50, R51, Tables 11.2 and 11.3). -/
def Obligations.FieldBodyDecodesItsLayout : Prop :=
  ∀ (body : List Byte) (es : List Entry),
    decodeFieldBody body = some es ↔
      ∃ (conc : Word16) (frame : Byte), 1 ≤ es.length ∧ es.length ≤ 16 ∧ (∀ e ∈ es, e.inRange conc) ∧
        body = byte2 conc.toNat ++ [frame] ++ byte1 es.length ++ es.flatMap entryBytes

/-- Lengths out of bounds on both links, and a request marker that completes while W + Q is 40 (R44, R164(c), R165). -/
def Obligations.LengthRefusedAndMarkerIgnored : Prop :=
  (∀ (hi b : Byte) (s : State), s.settled = true → s.fieldPort.rx.state = .header → s.fieldPort.rx.len = [hi] →
    ((be16 hi b).toNat < 15 ∨ 244 < (be16 hi b).toNat) →
    exec (.fieldLengthRefusal b) s = .next
      (((s.setRx .field Receiver.idle).bump .framesFormat).reply 0#8 .format).look) ∧
  (∀ (hi b : Byte) (s : State), s.settled = true → s.plannerPort.rx.state = .header → s.plannerPort.rx.len = [hi] →
    ((be16 hi b).toNat < 4 ∨ 164 < (be16 hi b).toNat) →
    exec (.requestLengthRefusal b) s = .next ((s.setRx .planner Receiver.idle).bump .requestsLength).look) ∧
  ∀ s : State, s.settled = true → s.plannerPort.rx.state = .hunt → s.plannerPort.rx.candidate = true → 40 ≤ s.outstanding →
    exec (.markerIgnored 0x92#8) s = .next ((s.setRx .planner Receiver.idle).bump .markersIgnored).look

/-- A message sent leaves its transmitter's queue (R53, R165). A gap timer that runs out abandons a frame in reception and counts it, or clears a marker
candidate (R46, R164). -/
def Obligations.SentMessagesAndGapExpiry : Prop :=
  (∀ s : State, s.settled = true →
    exec .frameReplySent s = .next
      (State.look { s with fieldPort := { s.fieldPort with replies := s.fieldPort.replies.tail } }) ∧
    exec .responseSent s = .next
      (State.look { s with plannerPort := { s.plannerPort with responses := s.plannerPort.responses.tail } })) ∧
  ∀ (l : Link) (n : Nat) (s : State), s.settled = true → (s.rx l).gap = some n →
    exec (.frameGapExpiry l) s = .next (State.look
      (if (s.rx l).state = .hunt then (if (s.rx l).candidate = true then s.setRx l Receiver.idle else s)
       else (s.setRx l Receiver.idle).bump (match l with | .field => .framesAbandoned | .planner => .requestsAbandoned)))

/-- A break, or a byte with a bad stop bit, abandons a frame in reception without a reply and counts it, clears a marker candidate in HUNT, and has no
effect in HUNT with the candidate clear (R47; the planner link likewise by R164). -/
def Obligations.BreakAbandons : Prop :=
  ∀ (l : Link) (cause : BreakCause) (s : State), s.settled = true →
    exec (.lineBreak l cause) s = .next (State.look
      (if (s.rx l).state = .hunt then (if (s.rx l).candidate = true then s.setRx l Receiver.idle else s)
       else (s.setRx l Receiver.idle).bump (match l with | .field => .framesAbandoned | .planner => .requestsAbandoned)))

/-- A request frame's second CRC byte: LINK_ERROR, BAD_REQUEST for a channel above 7, admission to its channel queue, or CHANNEL_FULL (R33, R166). The requests
that a reset under its grant is about to purge, a TABLE RESET those of channels 1 to 7 and a CHANNEL RESET those of its target, do not make the queue full
(R37); that such a request stands in the queue until the purge removes it with the others is the model's reading (log entry 26). -/
def Obligations.RequestFrameHandled : Prop :=
  (∀ (b c n t1 t0 k : Byte) (rest : List Byte) (s : State), s.settled = true → s.plannerPort.rx.state = .check →
    s.plannerPort.rx.crc = [c] → s.plannerPort.rx.body = n :: t1 :: t0 :: k :: rest →
    exec (.requestFrameComplete b) s = .next (State.look
      (let s0 := s.setRx .planner Receiver.idle
       if crc16 (s.plannerPort.rx.len ++ s.plannerPort.rx.body) ≠ be16 c b then
         (s0.bump .linkErrors).respond { channel := n, tag := be16 t1 t0, kind := k, code := .linkError, body := [] }
       else if h : n.toNat < 8 then
         if (s.chan ⟨n.toNat, h⟩).queue.length < 4 ∨ s.purging ⟨n.toNat, h⟩ = true then
           s0.modChan ⟨n.toNat, h⟩ (fun q => { q with queue := q.queue ++ [{ tag := be16 t1 t0, kind := k, body := rest }] })
         else (s0.bump .channelFulls).respond { channel := n, tag := be16 t1 t0, kind := k, code := .channelFull, body := [] }
       else (s0.bump .badChannels).respond { channel := n, tag := be16 t1 t0, kind := k, code := .badRequest, body := [] }))) ∧
  ∀ (s : State) (target : Channel), s.purging target = true ↔
    ∃ (g : Grant) (c : Channel) (rq : Request), s.arbiter.store = .granted g ∧ g.pos = posOf c ∧ (s.chan c).queue.head? = some rq ∧
      ((rq.kind = requestCode .tableReset ∧ c = 0 ∧ rq.body = [] ∧ target ≠ 0) ∨
        (rq.kind = requestCode .channelReset ∧ (c = 0 ∨ c = target) ∧ rq.body = [channelByte target]))

/-! ### The Store Arbiter and the common checks -/

/-- The arbiter's look (R25, R27, R29): an IDLE store is granted to the first waiting position from the pointer on, position 10 followed by position
0, with the clock read there and the pointer set to the position after; a GRANTED store stays so; with no requester waiting nothing changes. -/
def Obligations.ArbiterGrantsInRotation : Prop :=
  (∀ (s : State) (g : Grant), s.arbiter.store = .granted g → s.look = s) ∧
  (∀ s : State, (∀ p : ArbPos, s.waits p = false) → s.look = s) ∧
  ∀ (s : State) (k : ArbPos), s.arbiter.store = .idle → s.waits (s.arbiter.pointer + k) = true →
    (∀ j : ArbPos, j < k → s.waits (s.arbiter.pointer + j) = false) →
    s.look = { s with arbiter :=
      { pointer := s.arbiter.pointer + k + 1
        store := .granted ⟨s.arbiter.pointer + k, s.clock.minute, s.exportUnit.freeRows, vmap Zone.staged s.store.zones⟩ } }

/-- Each grant to another requester brings the pointer nearer to a waiting one (the argument of R28). -/
def Obligations.WaitingRequesterComesNearer : Prop :=
  ∀ (s : State) (p : ArbPos), s.arbiter.store = .idle → s.waits p = true →
    ∃ g : Grant, s.look.arbiter.store = .granted g ∧
      (g.pos = p ∨ (p - s.look.arbiter.pointer).val < (p - s.arbiter.pointer).val)

/-- A request that a common check refuses is answered with that check's code and changes nothing else; so is a request whose kind code names no
kind, with BAD_REQUEST (R32, R168). That a CHANNEL RESET body of another length than one byte names no channel, and one above 7 another channel, is the model's
reading (log entry 11). -/
def Obligations.CommonChecksDecideFirst : Prop :=
  (∀ (k : RequestKind) (ch : Channel) (body : List Byte) (c : Condition),
    commonRefusal k ch body c =
      if ch ≠ 0 ∧ k ∈ [.register, .amend, .retire, .stageProfile, .readProfile, .applyProfiles, .stageZone, .applyZone,
          .setZoneAttributes, .start, .tableReset, .setClock, .setParameters, .status] then some .notPermitted
      else if ch ≠ 0 ∧ k = .channelReset ∧ (match body with | [b] => decide (b.toNat ≠ ch.val) | _ => false) = true then some .notPermitted
      else if c = .halted ∧ k ∉ [.status, .tableReset, .channelReset, .takeNotices, .setNoticeMask] then some .halted
      else none) ∧
  (∀ (k : RequestKind) (ch : Channel) (rq : Request) (code : RespCode) (s : State), s.settled = true →
    (s.chan ch).queue.head? = some rq → rq.kind = requestCode k →
    commonRefusal k ch rq.body s.control.condition = some code →
    (isStoreKind k = false → exec (commandOf k ch) s = .next (s.finishLocal ch rq code [])) ∧
    ∀ g : Grant, isStoreKind k = true → s.walkerAtRest → s.arbiter.store = .granted g → g.pos = posOf ch →
      exec (commandOf k ch) s = .next (s.finishStore ch rq code [])) ∧
  ∀ (ch : Channel) (rq : Request) (s : State), s.settled = true → (s.chan ch).queue.head? = some rq →
    requestKindOf rq.kind = none → exec (.unknownRequestKind ch) s = .next (s.finishLocal ch rq .badRequest [])

/-- A body of another length than its layout's is answered BAD_REQUEST with nothing changed (R196), the device being RUNNING; and so is, in every condition in which
the common checks let the request pass, a body of another length or with a value out of its range (R14, R15(a), R17(a), R20(a), R103, R107, R116(b), R121, R126(a),
R159, R172, R175 to R177, R186, R196), CLAIM and EXPORT in RUNNING only, their NOT_RUNNING coming first (R116, R154). For a RELEASE with a bin number out of range,
a CHANNEL RESET that names no channel and a body where the layout has none this rests on log entries 12, 11 and 23. -/
def Obligations.WrongLengthIsBadRequest : Prop :=
  (∀ (k : RequestKind) (n : Nat) (ch : Channel) (rq : Request) (s : State), fixedLength k = some n → rq.body.length ≠ n →
    s.control.condition = .running →
    (LocalTurn k ch rq s → isStoreKind k = false → exec (commandOf k ch) s = .next (s.finishLocal ch rq .badRequest [])) ∧
    ∀ g : Grant, StoreTurn k ch rq g s → isStoreKind k = true → s.walkerAtRest →
      exec (commandOf k ch) s = .next (s.finishStore ch rq .badRequest [])) ∧
  ∀ (k : RequestKind) (ch : Channel) (rq : Request) (s : State), ¬ bodyInRange k rq.body →
    ((k = .claim ∨ k = .zoneExport) → s.control.condition = .running) →
    (LocalTurn k ch rq s → isStoreKind k = false → exec (commandOf k ch) s = .next (s.finishLocal ch rq .badRequest [])) ∧
    ∀ g : Grant, StoreTurn k ch rq g s → isStoreKind k = true → s.walkerAtRest →
      exec (commandOf k ch) s = .next (s.finishStore ch rq .badRequest [])

/-! ### Fill and ready evaluation -/

/-- Every fill computed with a usable profile is from 0 to 100, is 0 from the empty reference on and 100 down from the full reference, and between
them is the share of the span rounded to the nearest percent, halves up (R78). -/
def Obligations.FillIsRoundedShareOfSpan : Prop :=
  ∀ (p : Profile) (r : Nat), p.fullRef < p.emptyRef →
    computeFill p r ≤ 100 ∧ (p.emptyRef ≤ r → computeFill p r = 0) ∧ (r ≤ p.fullRef → computeFill p r = 100) ∧
    (p.fullRef < r → r < p.emptyRef →
      computeFill p r = ((p.emptyRef - r) * 100 + (p.emptyRef - p.fullRef) / 2) / (p.emptyRef - p.fullRef) ∧
      2 * computeFill p r * (p.emptyRef - p.fullRef) ≤ 200 * (p.emptyRef - r) + (p.emptyRef - p.fullRef) ∧
        200 * (p.emptyRef - r) + (p.emptyRef - p.fullRef) < 2 * (computeFill p r + 1) * (p.emptyRef - p.fullRef))

/-- Ready evaluation leaves a record with its membership as the ready test says, its urgent flag as the urgent threshold says and its band as its
fill says, and changes nothing else of it, no other record and no route (R96 to R99). Its notices are READY or WITHDRAWN to the zone's watchers, then URGENT to them or
to the owner of the record's route (R97, R98, R100, R109, R110; their value is that of log entry 10), and its zone's ready list, ready members, urgent and band
counters follow (R95, R97 to R99). A second evaluation changes no record and gives no notice (R101). -/
def Obligations.EvaluationBringsRecordIntoLine : Prop :=
  ∀ (claimForm : Bool) (slot : Nat) (r : BinRecord) (w : Work), w.record slot = some r →
    (evaluate claimForm slot w).record slot = some (evaluated (w.zone r.key.zone) r) ∧
    (∀ n : Nat, n ≠ slot → (evaluate claimForm slot w).record n = w.record n) ∧
    (evaluate claimForm slot w).store.routes = w.store.routes ∧
    (evaluate claimForm slot (evaluate claimForm slot w)).record slot = (evaluate claimForm slot w).record slot ∧
    (evaluate claimForm slot (evaluate claimForm slot w)).out = (evaluate claimForm slot w).out ∧
    (evaluate claimForm slot w).out = w.out ++ evaluationNotices claimForm (w.zone r.key.zone) w.store.routes w.clock r ∧
    (∀ z : ZoneNo, z ≠ r.key.zone → (evaluate claimForm slot w).zone z = w.zone z) ∧
    (let z := w.zone r.key.zone
     let r' := evaluated z r
     (evaluate claimForm slot w).zone r.key.zone =
      { z with
        readyList :=
          if r'.key.ready = true then
            placeIn w.store.slots slot (if r.key.ready = true then takeOut slot z.readyList else z.readyList)
          else if r.key.ready = true then takeOut slot z.readyList else z.readyList
        counters := { z.counters with
          readyMembers := z.counters.readyMembers - (r.key.ready && !r'.key.ready).toNat + (r'.key.ready && !r.key.ready).toNat
          urgent := z.counters.urgent - (r.key.urgent && !r'.key.urgent).toNat + (r'.key.urgent && !r.key.urgent).toNat
          bands := if r'.key.band = r.key.band then z.counters.bands
            else
              let down := match r.key.band with | some b => vmod z.counters.bands b (· - 1) | none => z.counters.bands
              match r'.key.band with | some b => vmod down b (· + 1) | none => down } })

/-- What a checked read does (R6, R10, R191 to R194). A single error is corrected and counted, in every condition. An uncorrectable error in a key group, a way or an
overflow entry halts a device that is not HALTED, and one met in HALTED is only counted. One in a reading group poisons the record of a device that is not HALTED, with
its member, its route, its zone and the notices of R192 following (a record that is POISONED already too: log entry 18), and is only counted in HALTED. Both groups of a
record are checked, the key group first, whatever each pair of them holds. A lookup reads the four ways of its bucket in way order and, when none of them holds the bin,
the 256 overflow entries in entry order; a damaged entry does not match (log entry 13). A grant that has halted the device ends with HALT asserted, no walk job, an empty
due list, and DEVICE_HALTED to every channel after its other notices (R31, R40, R180(d), R193). -/
def Obligations.CheckedReadsRepairPoisonOrHalt : Prop :=
  (∀ (ends : Bool) (slot : Nat) (r : BinRecord) (w : Work), w.record slot = some r → w.halting = false →
    (r.keyHealth = .sound → r.readingHealth = .sound → readGroups ends slot w = w) ∧
    (r.keyHealth = .single → r.readingHealth = .sound →
      readGroups ends slot w = (w.bump .corrected).putRecord slot { r with keyHealth := .sound }) ∧
    (r.keyHealth = .sound → r.readingHealth = .single →
      readGroups ends slot w = (w.bump .corrected).putRecord slot { r with readingHealth := .sound }) ∧
    (r.keyHealth = .double → r.readingHealth = .sound → w.condition ≠ .halted →
      readGroups ends slot w = { w.bump .uncorrectable with condition := .halted, halting := true }) ∧
    (r.keyHealth = .double → r.readingHealth = .double → w.condition ≠ .halted →
      readGroups ends slot w = Work.bump .uncorrectableHalted { w.bump .uncorrectable with condition := .halted, halting := true }) ∧
    (r.keyHealth = .sound → r.readingHealth = .double → w.condition = .halted →
      readGroups ends slot w = w.bump .uncorrectableHalted) ∧
    (r.keyHealth = .sound → r.readingHealth = .double → w.condition ≠ .halted →
      (readGroups ends slot w).record slot = some
        { key := { r.key with state := .poisoned, claim := none, ready := false, urgent := false, band := none }
          reading := ⟨none, none, none, none, none, none, false, none, none⟩
          keyHealth := .sound
          readingHealth := .sound } ∧
      (∀ n : Nat, n ≠ slot → (readGroups ends slot w).record n = w.record n) ∧
      (readGroups ends slot w).condition = w.condition ∧ (readGroups ends slot w).halting = false ∧
      (readGroups ends slot w).counters = bumpIn .poisonedRecords w.counters)) ∧
  (∀ (ends : Bool) (slot : Nat) (r : BinRecord) (w : Work), w.record slot = some r →
    (r.keyHealth = .single → r.readingHealth = .single →
      readGroups ends slot w = ((w.bump .corrected).bump .corrected).putRecord slot { r with keyHealth := .sound, readingHealth := .sound }) ∧
    (r.keyHealth = .double → r.readingHealth = .single → w.condition ≠ .halted →
      readGroups ends slot w = (Work.bump .corrected { w.bump .uncorrectable with condition := .halted, halting := true }).putRecord slot
        { r with readingHealth := .sound }) ∧
    (w.condition = .halted →
      (r.keyHealth = .double → r.readingHealth = .sound → readGroups ends slot w = w.bump .uncorrectableHalted) ∧
      (r.keyHealth = .double → r.readingHealth = .single →
        readGroups ends slot w = ((w.bump .uncorrectableHalted).bump .corrected).putRecord slot { r with readingHealth := .sound }) ∧
      (r.keyHealth = .double → r.readingHealth = .double →
        readGroups ends slot w = (w.bump .uncorrectableHalted).bump .uncorrectableHalted) ∧
      (r.keyHealth = .single → r.readingHealth = .double →
        readGroups ends slot w = ((w.bump .corrected).putRecord slot { r with keyHealth := .sound }).bump .uncorrectableHalted)) ∧
    (r.keyHealth ≠ .double → r.readingHealth = .double → w.condition ≠ .halted →
      let u := readGroups ends slot w
      let lost := fun (rt : Route) => membersAfter .lost (fun b => b == r.key.bin) rt.members
      u.record slot = some (poisonedFrom r) ∧ (∀ n : Nat, n ≠ slot → u.record n = w.record n) ∧
      u.condition = w.condition ∧ u.halting = w.halting ∧
      u.counters = bumpIn .poisonedRecords (if r.keyHealth = .single then bumpIn .corrected w.counters else w.counters) ∧
      u.out = w.out ++ poisonNotices ends (w.zone r.key.zone) w.store.routes w.clock r ∧
      (∀ (i : RouteIdx) (rt : Route), r.key.claim = some i → w.route i = some rt →
        u.route i = (if ends = true then routeAfter rt (lost rt) else some { rt with members := lost rt }) ∧
        vget u.deadlines i = if ends = true ∧ anyPending (lost rt) = false then none else vget w.deadlines i) ∧
      (∀ j : RouteIdx, r.key.claim ≠ some j → u.route j = w.route j ∧ vget u.deadlines j = vget w.deadlines j) ∧
      ∀ z : ZoneNo, u.zone z =
        if z = r.key.zone then
          { w.zone z with
            counters := { (w.zone z).counters.less r with records := (w.zone z).counters.records }
            readyList := if r.key.ready = true then takeOut slot (w.zone z).readyList else (w.zone z).readyList }
        else w.zone z)) ∧
  (∀ (k : Nat) (w : Work),
    ((sfind k w.store.wayHealth).getD .sound = .sound → checkWay w k = w) ∧
    (sfind k w.store.wayHealth = some .single →
      checkWay w k = { w.bump .corrected with store := { w.store with wayHealth := sdrop k w.store.wayHealth } }) ∧
    (sfind k w.store.wayHealth = some .double → w.condition ≠ .halted →
      checkWay w k = { w.bump .uncorrectable with condition := .halted, halting := true }) ∧
    (sfind k w.store.wayHealth = some .double → w.condition = .halted → checkWay w k = w.bump .uncorrectableHalted) ∧
    ((sfind k w.store.overflowHealth).getD .sound = .sound → checkOverflow w k = w) ∧
    (sfind k w.store.overflowHealth = some .single →
      checkOverflow w k = { w.bump .corrected with store := { w.store with overflowHealth := sdrop k w.store.overflowHealth } }) ∧
    (sfind k w.store.overflowHealth = some .double → w.condition ≠ .halted →
      checkOverflow w k = { w.bump .uncorrectable with condition := .halted, halting := true }) ∧
    (sfind k w.store.overflowHealth = some .double → w.condition = .halted → checkOverflow w k = w.bump .uncorrectableHalted)) ∧
  (∀ (b : BinNumber) (w : Work),
    let ways := [4 * bucketOf b, 4 * bucketOf b + 1, 4 * bucketOf b + 2, 4 * bucketOf b + 3]
    let inWay := fun (k : Nat) => ∃ e, sfind k w.store.ways = some e ∧ e.bin = b ∧ sfind k (ways.foldl checkWay w).store.wayHealth ≠ some .double
    ((∃ k ∈ ways, inWay k) → (lookupBin b w).1 = ways.foldl checkWay w ∧
      ∃ k e, (lookupBin b w).2 = some (.way k, e.slot) ∧ k ∈ ways ∧ inWay k ∧ sfind k w.store.ways = some e ∧ ∀ l ∈ ways, l < k → ¬ inWay l) ∧
    ((∀ k ∈ ways, ¬ inWay k) → (lookupBin b w).1 = (List.range 256).foldl checkOverflow (ways.foldl checkWay w) ∧
      ∀ place slot, (lookupBin b w).2 = some (place, slot) →
        ∃ k e, place = .overflow k ∧ k < 256 ∧ sfind k w.store.overflow = some e ∧ e.bin = b ∧ e.bucket = bucketOf b ∧ e.slot = slot)) ∧
  ∀ (g : Grant) (out : List (Channel × Notice)) (s : State),
    endGrant g true out s = (State.offerAll (out ++ haltNotices g.clock)
      { s with
        walker := { s.walker with running := none, pendingRecal := none, pendingRescan := none, pendingAge := false, ageHanded := false }
        expiry := { s.expiry with dueList := [], handedRoutes := none, handedExports := none }
        control := { s.control with condition := .halted, haltLine := true } }).idled.look

/-! ### Entries -/

/-- An entry that fails a test is discarded (R55 to R59, R67): it leaves the queue, its outcome is counted, and the Record Store is as before; an
entry for an unknown bin gives STRAY to channel 0. An entry whose lookup, or whose record's key group, is damaged beyond correction halts the device and leaves the
queue counted under no outcome (R31, R193); one whose record is poisoned by the read is discarded as POISONED_BIN after the poisoning (R57, R192). -/
def Obligations.DiscardedEntryChangesNoRecord : Prop :=
  (∀ (e : Entry) (g : Grant) (s : State), EntryTurn e g s → s.walkerAtRest → s.store.sound →
    ∃ t,
      exec (match e.report with
        | .fill _ _ => .fillEntry
        | .emptied _ _ => .emptiedEntry
        | .fault _ _ => .faultEntry) s = .next t ∧
      (s.store.locate e.bin = none →
        t = (State.offer 0 ⟨.stray, none, none, some e.bin, g.clock, some (.concentrator e.concentrator)⟩
              (State.bump .entriesUnknown { s with updateQueue := s.updateQueue.tail })).idled.look) ∧
      ∀ (slot : Nat) (r : BinRecord), s.store.holds e.bin slot r →
        (r.key.state = .poisoned →
          t = (State.bump .entriesPoisonedBin { s with updateQueue := s.updateQueue.tail }).idled.look) ∧
        (r.key.state ≠ .poisoned → g.clock.toNat + 2 < e.time.toNat →
          t = (State.bump .entriesFuture { s with updateQueue := s.updateQueue.tail }).idled.look) ∧
        (r.key.state ≠ .poisoned → e.time.toNat ≤ g.clock.toNat + 2 → isStale e r.reading = true →
          t = (State.bump .entriesStale { s with updateQueue := s.updateQueue.tail }).idled.look)) ∧
  ∀ (e : Entry) (g : Grant) (s : State), EntryTurn e g s → s.control.condition ≠ .halted →
    let l := lookupBin e.bin (workOf s g)
    (l.1.halting = true → ∃ t, exec (entryCommand e) s = .next t ∧ t.updateQueue = s.updateQueue.tail ∧ HaltsWith g l.1 s t ∧ NoOutcomeCounted s t) ∧
    ∀ (place : IndexPlace) (slot : Nat) (r : BinRecord), l.1.halting = false → l.2 = some (place, slot) → sfind slot s.store.slots = some r →
      (r.keyHealth = .double → ∃ t, exec (entryCommand e) s = .next t ∧ t.updateQueue = s.updateQueue.tail ∧
        HaltsWith g (readGroups true slot l.1) s t ∧ NoOutcomeCounted s t) ∧
      (r.keyHealth ≠ .double → r.readingHealth = .double → ∃ t, exec (entryCommand e) s = .next t ∧ t.updateQueue = s.updateQueue.tail ∧
        PoisonedBy slot r g s t ∧ t.count .entriesPoisonedBin = satInc (s.count .entriesPoisonedBin))

/-- The STALE tests of the three kinds of entry, (a) to (c) of R59. -/
def Obligations.StaleTestsOfEachKind : Prop :=
  ∀ (e : Entry) (r : ReadingGroup),
    isStale e r = true ↔
      match e.report with
      | .fill _ _ =>
        (∃ f, r.fill = some f ∧ e.time.toNat ≤ f.time.toNat) ∨ (∃ u, r.emptiedTime = some u ∧ e.time.toNat ≤ u.toNat) ∨
          ∃ p, r.pending = some p ∧ e.time.toNat ≤ p.time.toNat
      | .fault _ _ =>
        (∃ f, r.fill = some f ∧ e.time.toNat ≤ f.time.toNat) ∨ ∃ u, r.emptiedTime = some u ∧ e.time.toNat ≤ u.toNat
      | .emptied _ _ => ∃ u, r.emptiedTime = some u ∧ e.time.toNat ≤ u.toNat

/-- The spike filter applies a first value, a value not more than the jump limit above the fill, and a rise that a held reading within the confirm
window and the jump limit confirms; it holds every other rise (R81). -/
def Obligations.SpikeFilterDecides : Prop :=
  ∀ (p : Profile) (r : ReadingGroup) (v : Nat) (t : Minute),
    spikeFilter p r v t = .apply ↔
      (r.fill = none ∨ (∃ c, r.fill = some c ∧ v ≤ c.percent + p.jump) ∨
        ∃ h, r.pending = some h ∧ t.toNat ≤ h.time.toNat + p.window ∧ v ≤ h.percent + p.jump ∧ h.percent ≤ v + p.jump)

/-- A valid FILL (R60, R61, R82): applied, it writes fill, fill time and last raw reading and makes the record LIVE; held, it writes the pending
reading alone. Either way the report time, the battery code and the battery low flag follow R60, ready evaluation runs, the rest of the record, every
other record, the routes and the Bin Index are as before, and one outcome is counted. The record's zone counts it as it now is and its ready list follows (R4, R93 to
R99). The notices are BATTERY_LOW, then, for a FILL applied with a fall greater than the drop limit, UNPLANNED_EMPTY, then those of the evaluation (R60, R66, R83,
R109; their value is that of log entry 10). -/
def Obligations.ValidFillAppliedOrHeld : Prop :=
  ∀ (e : Entry) (rd : RawReading) (bat : Nat) (g : Grant) (slot : Nat) (r : BinRecord) (s : State), EntryTurn e g s →
    e.report = .fill rd bat → s.store.sound → s.store.holds e.bin slot r → r.key.state ≠ .poisoned →
    e.time.toNat ≤ g.clock.toNat + 2 → isStale e r.reading = false →
    let p := vget s.profiles.active r.key.profile
    let n := rd.raw * 2 ^ (12 - rd.resolution)
    let v := computeFill p n
    let common := { r.reading with reportTime := laterReport e.time r.reading.reportTime, battery := some bat, batteryLow := decide (bat ≤ p.lowBattery) }
    let applied : BinRecord := { r with
      key := { r.key with state := .live }
      reading := { common with fill := some ⟨v, e.time⟩, lastRaw := some n, pending := none, faultCode := none } }
    let held : BinRecord := { r with
      key := { r.key with state := if r.key.state = .silent then .live else r.key.state }
      reading := { common with pending := some ⟨v, n, e.time⟩ } }
    let z := s.zone r.key.zone
    let drop : List (Channel × Notice) := match r.reading.fill with
      | some c => if v + p.drop < c.percent then toEach z.watching (about .unplannedEmpty applied g.clock) else []
      | none => []
    ∃ t, exec .fillEntry s = .next t ∧ t.updateQueue = s.updateQueue.tail ∧
      (spikeFilter p r.reading v e.time = .apply →
        sfind slot t.store.slots = some (evaluated z applied) ∧
        t.count .entriesApplied = satInc (s.count .entriesApplied) ∧ t.count .entriesHeld = s.count .entriesHeld ∧
        (s.walkerAtRest → Offered (batteryNotices z g.clock r applied ++ drop ++ evaluationNotices false z s.store.routes g.clock applied) s t) ∧
        (s.walkerAtRest → s.store.ordered → s.countsAgree → s.countersAgree → s.store.readyInOrder → ZonesFollow slot r (evaluated z applied) s t)) ∧
      (spikeFilter p r.reading v e.time = .hold →
        sfind slot t.store.slots = some (evaluated z held) ∧
        t.count .entriesHeld = satInc (s.count .entriesHeld) ∧ t.count .entriesApplied = s.count .entriesApplied ∧
        (s.walkerAtRest → Offered (batteryNotices z g.clock r held ++ evaluationNotices false z s.store.routes g.clock held) s t) ∧
        (s.walkerAtRest → s.store.ordered → s.countsAgree → s.countersAgree → s.store.readyInOrder → ZonesFollow slot r (evaluated z held) s t)) ∧
      OtherRecordsKept slot s t ∧ IndexKept s t ∧ t.store.routes = s.store.routes ∧ t.expiry.deadlines = s.expiry.deadlines ∧
      t.profiles.users = s.profiles.users ∧ ZoneSettingsKept s t ∧ LinksAndSettingsKept s t

/-- A valid EMPTIED (R60, R62 to R64): the reading group in full or late form; a NEW or SILENT record becomes LIVE; a claimed record is unclaimed and
its member DONE with the measured time, its route ending when no member remains PENDING; ready evaluation runs; one outcome is counted. The record's zone counts it as
it now is and its ready list follows (R4, R93 to R99). The notices are UNPLANNED_EMPTY for a record that was unclaimed, or MEMBER_DONE to the route's owner and then
the ROUTE_ENDED of a route that ends, and then those of the evaluation (R64, R66, R109, R130; their value is that of log entry 10). -/
def Obligations.ValidEmptiedApplied : Prop :=
  ∀ (e : Entry) (u : Word16) (res : Option RawReading) (g : Grant) (slot : Nat) (r : BinRecord) (s : State), EntryTurn e g s →
    e.report = .emptied u res → s.store.sound → s.store.holds e.bin slot r → r.key.state ≠ .poisoned →
    e.time.toNat ≤ g.clock.toNat + 2 → isStale e r.reading = false →
    let emptied : BinRecord := { r with
      key := { r.key with state := if r.key.state = .new ∨ r.key.state = .silent then .live else r.key.state, claim := none }
      reading := readingAfterEmptying (vget s.profiles.active r.key.profile) e.time res (.truck u) r.reading }
    let z := s.zone r.key.zone
    ∃ t, exec .emptiedEntry s = .next t ∧ t.updateQueue = s.updateQueue.tail ∧
      sfind slot t.store.slots = some (evaluated z emptied) ∧
      (s.walkerAtRest →
        Offered
          ((match r.key.claim with
            | none => toEach z.watching (about .unplannedEmpty emptied g.clock)
            | some i => handOverNotices s.store.routes i e.time emptied g.clock) ++ evaluationNotices false z s.store.routes g.clock emptied) s t) ∧
      (s.walkerAtRest → s.store.ordered → s.countsAgree → s.countersAgree → s.store.readyInOrder → ZonesFollow slot r (evaluated z emptied) s t) ∧
      (∀ (i : RouteIdx) (rt : Route), r.key.claim = some i → vget s.store.routes i = some rt →
        vget t.store.routes i = routeAfter rt (membersAfter (.done e.time) (fun b => b == r.key.bin) rt.members) ∧
        vget t.expiry.deadlines i =
          if anyPending (membersAfter (.done e.time) (fun b => b == r.key.bin) rt.members) then vget s.expiry.deadlines i else none) ∧
      (∀ j : RouteIdx, r.key.claim ≠ some j →
        vget t.store.routes j = vget s.store.routes j ∧ vget t.expiry.deadlines j = vget s.expiry.deadlines j) ∧
      t.count .entriesApplied = satInc (s.count .entriesApplied) ∧ OtherRecordsKept slot s t ∧ IndexKept s t ∧
      t.profiles.users = s.profiles.users ∧ ZoneSettingsKept s t ∧ LinksAndSettingsKept s t

/-- A valid FAULT (R60, R65): the record becomes FAULTED with the entry's fault code; report time, battery code and battery low flag follow R60; its
claim, its readings, every other record, the routes and the Bin Index are as before; one outcome is counted. The record's zone counts it as it now is and its ready
list follows (R4, R93 to R99). The notices are BATTERY_LOW, then FAULTED to channel 0 and the zone's watchers whatever its notice mute, then those of the evaluation
(R60, R65, R66, R109; their value is that of log entry 10). -/
def Obligations.ValidFaultApplied : Prop :=
  ∀ (e : Entry) (code bat : Nat) (g : Grant) (slot : Nat) (r : BinRecord) (s : State), EntryTurn e g s →
    e.report = .fault code bat → s.store.sound → s.store.holds e.bin slot r → r.key.state ≠ .poisoned →
    e.time.toNat ≤ g.clock.toNat + 2 → isStale e r.reading = false →
    let faulted : BinRecord := { r with
      key := { r.key with state := .faulted }
      reading := { r.reading with
        reportTime := laterReport e.time r.reading.reportTime, battery := some bat
        batteryLow := decide (bat ≤ (vget s.profiles.active r.key.profile).lowBattery), faultCode := some code } }
    let z := s.zone r.key.zone
    ∃ t, exec .faultEntry s = .next t ∧ t.updateQueue = s.updateQueue.tail ∧
      sfind slot t.store.slots = some (evaluated z faulted) ∧
      (s.walkerAtRest → Offered (batteryNotices z g.clock r faulted ++ toEach z.zeroAndAll (about .faulted faulted g.clock)
        ++ evaluationNotices false z s.store.routes g.clock faulted) s t) ∧
      (s.walkerAtRest → s.store.ordered → s.countsAgree → s.countersAgree → s.store.readyInOrder → ZonesFollow slot r (evaluated z faulted) s t) ∧
      t.count .entriesApplied = satInc (s.count .entriesApplied) ∧ OtherRecordsKept slot s t ∧ IndexKept s t ∧
      t.store.routes = s.store.routes ∧ t.expiry.deadlines = s.expiry.deadlines ∧ t.profiles.users = s.profiles.users ∧
      ZoneSettingsKept s t ∧ LinksAndSettingsKept s t

/-! ### Record requests -/

/-- REGISTER (R7, R11, R15, R16): the checks in their order, each refusal changing nothing; and the new NEW record in the lowest free slot, its
users count and its zone's records counter raised, with every other record, the routes and the zones' settings as before. A REGISTER whose lookup meets damage beyond
correction is answered HALTED with no body, and the device halts (R10, R31, R193). -/
def Obligations.RegisterChecksThenPlaces : Prop :=
  (∀ (ch : Channel) (rq : Request) (g : Grant) (q : RegisterReq) (s : State), StoreTurn .register ch rq g s →
    parseRegister rq.body = some q → (lookupBin q.bin (workOf s g)).1.halting = true →
    ∃ t, exec (.register ch) s = .next t ∧ HaltedAnswer ch rq g (lookupBin q.bin (workOf s g)).1 s t) ∧
  ∀ (ch : Channel) (rq : Request) (g : Grant) (q : RegisterReq) (s : State), StoreTurn .register ch rq g s → s.walkerAtRest →
    s.store.sound → parseRegister rq.body = some q →
    let p := vget s.profiles.active q.profile
    let slot := lowestFree 0 s.store.slots
    (∀ n, s.store.locate q.bin = some n → exec (.register ch) s = .next (s.finishStore ch rq .alreadyRegistered (byte2 n))) ∧
    (s.store.locate q.bin = none → p.emptyRef ≤ p.fullRef →
      exec (.register ch) s = .next (s.finishStore ch rq .profileUnusable [])) ∧
    (s.store.locate q.bin = none → p.fullRef < p.emptyRef → (p.cls = .litter ↔ q.kind ≠ .litter) →
      exec (.register ch) s = .next (s.finishStore ch rq .profileMismatch [])) ∧
    (s.store.locate q.bin = none → p.fullRef < p.emptyRef → (p.cls = .litter ↔ q.kind = .litter) → 16384 ≤ slot →
      exec (.register ch) s = .next (s.finishStore ch rq .tableFull [])) ∧
    (s.store.locate q.bin = none → p.fullRef < p.emptyRef → (p.cls = .litter ↔ q.kind = .litter) → slot < 16384 →
      freeWay s.store (bucketOf q.bin) = none → freeOverflow s.store = none →
      exec (.register ch) s = .next (s.finishStore ch rq .indexFull [])) ∧
    (s.store.locate q.bin = none → p.fullRef < p.emptyRef → (p.cls = .litter ↔ q.kind = .litter) → slot < 16384 →
      (freeWay s.store (bucketOf q.bin) ≠ none ∨ freeOverflow s.store ≠ none) →
      ∃ t, exec (.register ch) s = .next t ∧ Answered ch rq .ok (byte2 slot) s t ∧
        sfind slot t.store.slots = some
          { key := ⟨q.bin, q.kind, q.zone, q.profile, .new, none, false, false, none, g.clock⟩
            reading := ⟨none, none, none, none, none, none, false, none, none⟩, keyHealth := .sound, readingHealth := .sound } ∧
        (∀ k, freeWay s.store (bucketOf q.bin) = some k →
          t.store.ways = sput k ⟨q.bin, slot⟩ s.store.ways ∧ t.store.overflow = s.store.overflow) ∧
        (∀ k, freeWay s.store (bucketOf q.bin) = none → freeOverflow s.store = some k →
          t.store.overflow = sput k ⟨bucketOf q.bin, q.bin, slot⟩ s.store.overflow ∧ t.store.ways = s.store.ways) ∧
        t.profiles.users = vmod s.profiles.users q.profile (· + 1) ∧
        (t.zone q.zone).counters.records = (s.zone q.zone).counters.records + 1 ∧
        (∀ z : ZoneNo, (t.zone z).readyList = (s.zone z).readyList) ∧
        (∀ c : Channel, (t.chan c).notices = (s.chan c).notices) ∧ OtherRecordsKept slot s t ∧
        t.store.routes = s.store.routes ∧ t.expiry = s.expiry ∧ t.walker = s.walker ∧ t.updateQueue = s.updateQueue ∧
        ZoneSettingsKept s t ∧ LinksAndSettingsKept s t)

/-- The checks of AMEND in their order, each refusal changing nothing (R17(b) to (f)): UNKNOWN, POISONED, CLAIMED, PROFILE_UNUSABLE, PROFILE_MISMATCH. Passed, the
record has the kind, zone and profile named, counted where it now stands and in the ready list there (R18), recomputed when its profile is another (R19, R85), and
evaluated. That an AMEND whose fields equal the current ones is OK with nothing changed and no evaluation is the model's reading (log entry 22). The notices are the
WITHDRAWN of a zone move to the old zone's watchers, then BATTERY_LOW, then those of the evaluation (R18, R19, R100, R109; their value is that of log entry 10). A damaged
index entry or key group halts the device with the answer HALTED (R31, R193), and a damaged reading group poisons the record with the answer POISONED (R17(c), R192). -/
def Obligations.AmendChangesNamedFields : Prop :=
  (∀ (ch : Channel) (rq : Request) (g : Grant) (q : AmendReq) (s : State), StoreTurn .amend ch rq g s → parseAmend rq.body = some q →
    (s.walkerAtRest → s.store.sound → s.store.locate q.bin = none → exec (.amend ch) s = .next (s.finishStore ch rq .unknown [])) ∧
    let l := lookupBin q.bin (workOf s g)
    (l.1.halting = true → ∃ t, exec (.amend ch) s = .next t ∧ HaltedAnswer ch rq g l.1 s t) ∧
    ∀ (place : IndexPlace) (slot : Nat) (r : BinRecord), l.1.halting = false → l.2 = some (place, slot) → sfind slot s.store.slots = some r →
      (r.keyHealth = .double → ∃ t, exec (.amend ch) s = .next t ∧ HaltedAnswer ch rq g (readGroups true slot l.1) s t) ∧
      (r.keyHealth ≠ .double → r.readingHealth = .double → ∃ t, exec (.amend ch) s = .next t ∧ Answered ch rq .poisoned [] s t ∧
        PoisonedBy slot r g s t)) ∧
  ∀ (ch : Channel) (rq : Request) (g : Grant) (q : AmendReq) (slot : Nat) (r : BinRecord) (s : State), StoreTurn .amend ch rq g s →
    s.walkerAtRest → s.store.sound → parseAmend rq.body = some q → s.store.holds q.bin slot r →
    let zone := q.zone.getD r.key.zone
    let kind := q.kind.getD r.key.kind
    let profile := q.profile.getD r.key.profile
    let p := vget s.profiles.active profile
    let moved := zone ≠ r.key.zone
    let reading := if profile = r.key.profile then r.reading else
      { r.reading with
        fill := match r.reading.lastRaw with
          | some raw => r.reading.fill.map (fun f => ⟨computeFill p raw, f.time⟩)
          | none => r.reading.fill
        pending := none
        batteryLow := match r.reading.battery with | some b => decide (b ≤ p.lowBattery) | none => false }
    let amended : BinRecord :=
      { r with
        key := { r.key with
          zone := zone, kind := kind, profile := profile, ready := if moved then false else r.key.ready
          urgent := if moved then false else r.key.urgent, band := if moved then none else r.key.band }
        reading := reading }
    (r.key.state = .poisoned → exec (.amend ch) s = .next (s.finishStore ch rq .poisoned [])) ∧
    (∀ (i : RouteIdx) (rt : Route), r.key.state ≠ .poisoned → zone ≠ r.key.zone → r.key.claim = some i →
      vget s.store.routes i = some rt →
      exec (.amend ch) s = .next (s.finishStore ch rq .claimed (byte1 i.val ++ byte1 rt.owner.val))) ∧
    (r.key.state ≠ .poisoned → (zone = r.key.zone ∨ r.key.claim = none) → p.emptyRef ≤ p.fullRef →
      exec (.amend ch) s = .next (s.finishStore ch rq .profileUnusable [])) ∧
    (r.key.state ≠ .poisoned → (zone = r.key.zone ∨ r.key.claim = none) → p.fullRef < p.emptyRef →
      (p.cls = .litter ↔ kind ≠ .litter) → exec (.amend ch) s = .next (s.finishStore ch rq .profileMismatch [])) ∧
    (r.key.state ≠ .poisoned → p.fullRef < p.emptyRef → (p.cls = .litter ↔ kind = .litter) →
      zone = r.key.zone → kind = r.key.kind → profile = r.key.profile →
      exec (.amend ch) s = .next (s.finishStore ch rq .ok [])) ∧
    (r.key.state ≠ .poisoned → (zone = r.key.zone ∨ r.key.claim = none) → p.fullRef < p.emptyRef →
      (p.cls = .litter ↔ kind = .litter) → ¬ (zone = r.key.zone ∧ kind = r.key.kind ∧ profile = r.key.profile) →
      ∃ t, exec (.amend ch) s = .next t ∧ Answered ch rq .ok [] s t ∧
        sfind slot t.store.slots = some (evaluated (s.zone zone)
          { r with key := { r.key with zone := zone, kind := kind, profile := profile }, reading := reading }) ∧
        (moved → ∀ z : ZoneNo,
          (t.zone z).counters =
            (if z = zone then (s.zone z).counters.plus (evaluated (s.zone zone) amended)
             else if z = r.key.zone then (s.zone z).counters.less r else (s.zone z).counters) ∧
          (t.zone z).readyList =
            if z = zone then
              if (evaluated (s.zone zone) amended).key.ready = true then placeIn t.store.slots slot (s.zone z).readyList else (s.zone z).readyList
            else if z = r.key.zone ∧ r.key.ready = true then takeOut slot (s.zone z).readyList else (s.zone z).readyList) ∧
        (¬ moved → s.store.ordered → s.countsAgree → s.countersAgree → s.store.readyInOrder → JobGoesOn s t →
          ZonesFollow slot r (evaluated (s.zone zone) amended) s t) ∧
        (JobGoesOn s t → Offered
          ((if moved ∧ r.key.ready = true then
              toEach (s.zone r.key.zone).watching { about .withdrawn amended g.clock with zone := some r.key.zone } else [])
            ++ batteryNotices (s.zone zone) g.clock r amended
            ++ evaluationNotices false (s.zone zone) s.store.routes g.clock amended) s t) ∧
        (profile ≠ r.key.profile →
          vget t.profiles.users profile = vget s.profiles.users profile + 1 ∧
          vget t.profiles.users r.key.profile = vget s.profiles.users r.key.profile - 1) ∧
        OtherRecordsKept slot s t ∧ IndexKept s t ∧ t.store.routes = s.store.routes ∧ t.expiry.deadlines = s.expiry.deadlines ∧
        t.updateQueue = s.updateQueue ∧ ZoneSettingsKept s t ∧ LinksAndSettingsKept s t)

/-- RETIRE (R20, R21): UNKNOWN for a bin without record; a claimed record needs FORCE; otherwise the record leaves its slot and its index entry. An overflow entry is
freed; a freed way takes the lowest-numbered overflow entry of its bucket, and every other index entry is as before (R12), so that a lookup finds the bin no more and
every other bin in its slot. A claimed record's member becomes LOST and a route left without PENDING member ends; the users count falls by one, and the zone no longer
counts the record or lists it. The notices are MEMBER_LOST, the ROUTE_ENDED of a route that ends, and WITHDRAWN, the first and the last without value (R21, R109, R130).
A damaged index entry or key group halts the device with the answer HALTED, those of the overflow search among them (R12, R31, R193).That the
key group is read before that search is the model's choice (log entry 27). -/
def Obligations.RetireRemovesRecord : Prop :=
  ∀ (ch : Channel) (rq : Request) (g : Grant) (bin : BinNumber) (force : Bool) (s : State),
    StoreTurn .retire ch rq g s → parseRetire rq.body = some (bin, force) →
    (s.walkerAtRest → s.store.sound → s.store.locate bin = none → exec (.retire ch) s = .next (s.finishStore ch rq .unknown [])) ∧
    (let l := lookupBin bin (workOf s g)
     (l.1.halting = true → ∃ t, exec (.retire ch) s = .next t ∧ HaltedAnswer ch rq g l.1 s t) ∧
     ∀ (place : IndexPlace) (slot : Nat) (r : BinRecord), l.1.halting = false → l.2 = some (place, slot) → sfind slot s.store.slots = some r →
      (r.keyHealth = .double → ∃ t, exec (.retire ch) s = .next t ∧ HaltedAnswer ch rq g (checkKey slot l.1) s t) ∧
      ∀ k, r.keyHealth ≠ .double → place = .way k → (force = true ∨ r.key.claim = none) →
        ((List.range 256).foldl checkOverflow (checkKey slot l.1)).halting = true →
        ∃ t, exec (.retire ch) s = .next t ∧ HaltedAnswer ch rq g ((List.range 256).foldl checkOverflow (checkKey slot l.1)) s t) ∧
    ∀ (slot : Nat) (r : BinRecord), s.store.sound → s.store.ordered → s.store.holds bin slot r →
      (∀ (i : RouteIdx) (rt : Route), force = false → r.key.claim = some i → vget s.store.routes i = some rt → s.walkerAtRest →
        exec (.retire ch) s = .next (s.finishStore ch rq .claimed (byte1 i.val ++ byte1 rt.owner.val))) ∧
      (force = true ∨ r.key.claim = none →
        ∃ t, exec (.retire ch) s = .next t ∧ Answered ch rq .ok (byte2 slot) s t ∧ sfind slot t.store.slots = none ∧
          t.store.ways.length + t.store.overflow.length + 1 = s.store.ways.length + s.store.overflow.length ∧
          (s.store.indexAgrees →
            t.store.locate bin = none ∧ (∀ b : BinNumber, b ≠ bin → t.store.locate b = s.store.locate b) ∧
            (∀ k, s.store.placeOf bin = some (.overflow k) → t.store.ways = s.store.ways ∧
              ∀ n, sfind n t.store.overflow = if n = k then none else sfind n s.store.overflow) ∧
            ∀ k, s.store.placeOf bin = some (.way k) →
              ((∀ x ∈ s.store.overflow, x.2.bucket ≠ bucketOf bin) → t.store.overflow = s.store.overflow ∧
                ∀ n, sfind n t.store.ways = if n = k then none else sfind n s.store.ways) ∧
              ∀ (j : Nat) (e : OverflowEntry), sfind j s.store.overflow = some e → e.bucket = bucketOf bin →
                (∀ x ∈ s.store.overflow, x.2.bucket = bucketOf bin → j ≤ x.1) →
                (∀ n, sfind n t.store.ways = if n = k then some ⟨e.bin, e.slot⟩ else sfind n s.store.ways) ∧
                ∀ n, sfind n t.store.overflow = if n = j then none else sfind n s.store.overflow) ∧
          t.profiles.users = vmod s.profiles.users r.key.profile (· - 1) ∧
          (t.zone r.key.zone).counters.records = (s.zone r.key.zone).counters.records - 1 ∧
          (r.key.ready = true → (t.zone r.key.zone).readyList = takeOut slot (s.zone r.key.zone).readyList) ∧
          (∀ z : ZoneNo,
            (t.zone z).counters = (if z = r.key.zone then (s.zone z).counters.less r else (s.zone z).counters) ∧
            (t.zone z).readyList =
              if z = r.key.zone ∧ r.key.ready = true then takeOut slot (s.zone z).readyList else (s.zone z).readyList) ∧
          (∀ (i : RouteIdx) (rt : Route), r.key.claim = some i → vget s.store.routes i = some rt →
            vget t.store.routes i = routeAfter rt (membersAfter .lost (fun b => b == r.key.bin) rt.members) ∧
            vget t.expiry.deadlines i =
              if anyPending (membersAfter .lost (fun b => b == r.key.bin) rt.members) then vget s.expiry.deadlines i else none) ∧
          (∀ j : RouteIdx, r.key.claim ≠ some j →
            vget t.store.routes j = vget s.store.routes j ∧ vget t.expiry.deadlines j = vget s.expiry.deadlines j) ∧
          (s.walkerAtRest → JobGoesOn s t → Offered
            ((match r.key.claim with
              | none => []
              | some i =>
                match vget s.store.routes i with
                | some rt => (rt.owner, { aboutMember .memberLost i r g.clock with value := none }) ::
                    lastMemberNotices i rt (membersAfter .lost (fun b => b == r.key.bin) rt.members) g.clock
                | none => []) ++
              if r.key.ready = true then toEach (s.zone r.key.zone).watching { about .withdrawn r g.clock with value := none } else []) s t) ∧
          t.expiry.dueList = s.expiry.dueList ∧ OtherRecordsKept slot s t ∧ t.updateQueue = s.updateQueue ∧ ZoneSettingsKept s t ∧
          LinksAndSettingsKept s t)

/-- LOOKUP answers with the record view, laid out as Tables 1.6 and 11.10 give, or UNKNOWN, and changes nothing (R23). A damaged index entry or key group halts the
device with the answer HALTED (R31, R193); a damaged reading group poisons the record, and the view is that of the POISONED record (R23, R192). -/
def Obligations.LookupAnswersRecordView : Prop :=
  (∀ (ch : Channel) (rq : Request) (g : Grant) (bin : BinNumber) (s : State), StoreTurn .lookup ch rq g s → s.walkerAtRest →
    s.store.sound → parseLookup rq.body = some bin →
    (s.store.locate bin = none → exec (.lookup ch) s = .next (s.finishStore ch rq .unknown [])) ∧
    ∀ (slot : Nat) (r : BinRecord), s.store.holds bin slot r →
      exec (.lookup ch) s = .next (s.finishStore ch rq .ok (recordView slot r)) ∧ (recordView slot r).length = 45) ∧
  (∀ (slot : Nat) (r : BinRecord),
    recordView slot r =
      byte4 r.key.bin.toNat ++ byte2 slot
        ++ byte1 (match r.key.kind with | .litter => 0 | .glassClear => 1 | .glassGreen => 2 | .glassBrown => 3)
        ++ byte1 r.key.zone.val ++ byte1 r.key.profile.val
        ++ byte1 (match r.key.state with | .new => 0 | .live => 1 | .silent => 2 | .faulted => 3 | .poisoned => 4)
        ++ byte4 r.key.registered.toNat
        ++ byte1 (r.key.ready.toNat + 2 * r.key.urgent.toNat + 4 * r.reading.batteryLow.toNat)
        ++ byte2 (r.key.claim.isSome.toNat + 2 * r.reading.fill.isSome.toNat + 4 * r.reading.lastRaw.isSome.toNat
            + 8 * r.reading.emptiedTime.isSome.toNat + 16 * r.reading.emptiedBy.isSome.toNat + 32 * r.reading.reportTime.isSome.toNat
            + 64 * r.reading.battery.isSome.toNat + 128 * r.reading.pending.isSome.toNat + 256 * r.reading.faultCode.isSome.toNat)
        ++ byte1 (match r.key.claim with | some i => i.val | none => 0)
        ++ (match r.reading.fill with | some f => byte1 f.percent ++ byte4 f.time.toNat | none => byte1 0 ++ byte4 0)
        ++ byte2 (r.reading.lastRaw.getD 0)
        ++ byte4 (match r.reading.emptiedTime with | some u => u.toNat | none => 0)
        ++ (match r.reading.emptiedBy with
            | some (.truck u) => byte1 1 ++ byte2 u.toNat
            | some (.channel c) => byte1 2 ++ byte2 c.val
            | none => byte1 0 ++ byte2 0)
        ++ byte4 (match r.reading.reportTime with | some u => u.toNat | none => 0)
        ++ byte1 (r.reading.battery.getD 0)
        ++ (match r.reading.pending with
            | some p => byte1 p.percent ++ byte2 p.raw ++ byte4 p.time.toNat
            | none => byte1 0 ++ byte2 0 ++ byte4 0)
        ++ byte1 (r.reading.faultCode.getD 0)) ∧
  ∀ (ch : Channel) (rq : Request) (g : Grant) (bin : BinNumber) (s : State), StoreTurn .lookup ch rq g s → parseLookup rq.body = some bin →
    let l := lookupBin bin (workOf s g)
    (l.1.halting = true → ∃ t, exec (.lookup ch) s = .next t ∧ HaltedAnswer ch rq g l.1 s t) ∧
    ∀ (place : IndexPlace) (slot : Nat) (r : BinRecord), l.1.halting = false → l.2 = some (place, slot) → sfind slot s.store.slots = some r →
      (r.keyHealth = .double → ∃ t, exec (.lookup ch) s = .next t ∧ HaltedAnswer ch rq g (readGroups true slot l.1) s t) ∧
      (r.keyHealth ≠ .double → r.readingHealth = .double → ∃ t, exec (.lookup ch) s = .next t ∧
        Answered ch rq .ok (recordView slot (poisonedFrom r)) s t ∧ PoisonedBy slot r g s t)

/-! ### Profiles and zones -/

/-- STAGE PROFILE, READ PROFILE and STAGE ZONE (R71 to R73, R92, R103): a pair or a copy in its ranges is staged and nothing else changes; the first
failing field, or a pair out of its ranges, is sent back. A profile copy is sent as the twelve bytes of Table 11.9. -/
def Obligations.StagingRequests : Prop :=
  (∀ (ch : Channel) (rq : Request) (no : ProfileNo) (p : Profile) (s : State), LocalTurn .stageProfile ch rq s →
    parseStageProfile rq.body = some (no, p) →
    exec (.stageProfile ch) s = .next
      (if ¬ p.fullRef < p.emptyRef then s.finishLocal ch rq .badProfile [1#8]
       else if ¬ (1 ≤ p.jump ∧ p.jump ≤ 100) then s.finishLocal ch rq .badProfile [2#8]
       else if ¬ (1 ≤ p.window ∧ p.window ≤ 1440) then s.finishLocal ch rq .badProfile [3#8]
       else if ¬ (1 ≤ p.drop ∧ p.drop ≤ 100) then s.finishLocal ch rq .badProfile [4#8]
       else if ¬ (10 ≤ p.silence ∧ p.silence ≤ 10080) then s.finishLocal ch rq .badProfile [5#8]
       else if ¬ p.lowBattery ≤ 15 then s.finishLocal ch rq .badProfile [6#8]
       else State.finishLocal ch rq .ok []
        { s with profiles := { s.profiles with staged := vset s.profiles.staged no p } })) ∧
  (∀ (ch : Channel) (rq : Request) (no : ProfileNo) (s : State), LocalTurn .readProfile ch rq s →
    parseProfileNo rq.body = some no →
    exec (.readProfile ch) s = .next (s.finishLocal ch rq .ok
      (profileBytes (vget s.profiles.staged no) ++ flagByte (vget s.profiles.staged no).usable
        ++ profileBytes (vget s.profiles.active no) ++ flagByte (vget s.profiles.active no).usable
        ++ byte2 (vget s.profiles.users no)))) ∧
  (∀ p : Profile, profileBytes p =
    byte1 (match p.cls with | .litter => 0 | .glass => 1) ++ byte2 p.emptyRef ++ byte2 p.fullRef ++ byte1 p.jump ++ byte2 p.window
      ++ byte1 p.drop ++ byte2 p.silence ++ byte1 p.lowBattery ∧ (profileBytes p).length = 12) ∧
  ∀ (ch : Channel) (rq : Request) (z : ZoneNo) (p : Thresholds) (s : State), LocalTurn .stageZone ch rq s →
    parseStageZone rq.body = some (z, p) →
    exec (.stageZone ch) s = .next
      (if 1 ≤ p.collect ∧ p.collect ≤ p.urgent ∧ p.urgent ≤ 100 then
        State.finishLocal ch rq .ok []
          { s with store := { s.store with zones := vmod s.store.zones z (fun zn => { zn with staged := p }) } }
       else s.finishLocal ch rq .badThreshold (byte1 p.collect ++ byte1 p.urgent))

/-- APPLY PROFILES (R74, R75, R139, R141): a class change of a profile in use refuses it with nothing changed; otherwise the staged set becomes the
active set, and the changed profiles join the pending RECAL job, which an idle Walker starts when a record names one of them. With no such record the job completes at
once, and RECAL_DONE comes to channel 0 (R146); otherwise no notice is given. -/
def Obligations.ApplyProfilesCopiesStagedSet : Prop :=
  ∀ (ch : Channel) (rq : Request) (g : Grant) (s : State), StoreTurn .applyProfiles ch rq g s → s.walkerAtRest → rq.body = [] →
    let changed := (List.finRange 32).filter (fun p => vget s.profiles.staged p != vget s.profiles.active p)
    let conflicts := changed.filter (fun p => (vget s.profiles.staged p).cls != (vget s.profiles.active p).cls && vget s.profiles.users p != 0)
    (conflicts ≠ [] → exec (.applyProfiles ch) s = .next
      (s.finishStore ch rq .classConflict (byte1 conflicts.length ++ conflicts.flatMap (fun p => byte1 p.val)))) ∧
    (conflicts = [] →
      ∃ t, exec (.applyProfiles ch) s = .next t ∧
        Answered ch rq .ok (byte1 changed.length ++ changed.flatMap (fun p => byte1 p.val)) s t ∧
        t.profiles = { active := s.profiles.staged, staged := s.profiles.staged, users := s.profiles.users } ∧
        t.store.slots = s.store.slots ∧ t.store.routes = s.store.routes ∧ IndexKept s t ∧ t.expiry = s.expiry ∧
        ZoneSettingsKept s t ∧ (changed = [] → t.walker = s.walker) ∧
        (∀ j, changed ≠ [] → s.walker.running = some j → t.walker.running = some j ∧
          ∃ ps, t.walker.pendingRecal = some ps ∧
            ∀ p : ProfileNo, vget ps p = true ↔ p ∈ changed ∨ ∃ old, s.walker.pendingRecal = some old ∧ vget old p = true) ∧
        (s.walker.running = none → (∃ x ∈ s.store.slots, x.2.key.profile ∈ changed) →
          t.walker.pendingRecal = none ∧
          ∃ ps, t.walker.running = some ⟨.recal ps, none⟩ ∧ ∀ p : ProfileNo, vget ps p = true ↔ p ∈ changed) ∧
        (s.walker.running = none → changed ≠ [] → (∀ x ∈ s.store.slots, x.2.key.profile ∉ changed) →
          t.walker.running = none ∧ t.walker.pendingRecal = none ∧ Offered (recalNotices g.clock) s t) ∧
        (changed = [] ∨ s.walker.running ≠ none ∨ (∃ x ∈ s.store.slots, x.2.key.profile ∈ changed) → Offered [] s t))

/-- APPLY ZONE (R104, R105, R139, R141): the staged pair becomes the zone's active pair; the zone joins the pending RESCAN job, which an idle Walker
starts when the zone holds a record, the rescan outstanding flag then standing set; with no such record the job completes at once, and RESCAN_DONE comes to channel 0
and the zone's watchers whatever its notice mute (R109, R146); otherwise no notice is given. -/
def Obligations.ApplyZoneCopiesStagedPair : Prop :=
  ∀ (ch : Channel) (rq : Request) (g : Grant) (z : ZoneNo) (s : State), StoreTurn .applyZone ch rq g s → s.walkerAtRest →
    parseZoneNo rq.body = some z →
    ∃ t, exec (.applyZone ch) s = .next t ∧ Answered ch rq .ok [] s t ∧
      (∀ y : ZoneNo, (t.zone y).active = (if y = z then (s.zone y).staged else (s.zone y).active) ∧
        (t.zone y).staged = (s.zone y).staged ∧ (t.zone y).claimLock = (s.zone y).claimLock ∧
        (t.zone y).noticeMute = (s.zone y).noticeMute ∧ (t.zone y).watchers = (s.zone y).watchers ∧
        (t.zone y).readyList = (s.zone y).readyList ∧ (t.zone y).counters = (s.zone y).counters) ∧
      t.store.slots = s.store.slots ∧ t.store.routes = s.store.routes ∧ IndexKept s t ∧ t.profiles = s.profiles ∧
      t.expiry = s.expiry ∧
      (∀ j, s.walker.running = some j → t.walker.running = some j ∧ (t.zone z).rescan = true ∧
        ∃ zs, t.walker.pendingRescan = some zs ∧
          ∀ y : ZoneNo, vget zs y = true ↔ y = z ∨ ∃ old, s.walker.pendingRescan = some old ∧ vget old y = true) ∧
      (s.walker.running = none → (∃ x ∈ s.store.slots, x.2.key.zone = z) →
        (t.zone z).rescan = true ∧ t.walker.pendingRescan = none ∧
        ∃ zs, t.walker.running = some ⟨.rescan zs, none⟩ ∧ ∀ y : ZoneNo, vget zs y = true ↔ y = z) ∧
      (s.walker.running = none → (∀ x ∈ s.store.slots, x.2.key.zone ≠ z) →
        (t.zone z).rescan = false ∧ t.walker.running = none ∧ t.walker.pendingRescan = none ∧
        Offered (toEach (s.zone z).zeroAndAll ⟨.rescanDone, some z, none, none, g.clock, none⟩) s t) ∧
      (s.walker.running ≠ none ∨ (∃ x ∈ s.store.slots, x.2.key.zone = z) → Offered [] s t)

/-- SET ZONE ATTRIBUTES, ZONE SUMMARY, WATCH and UNWATCH write or read what they name and change nothing else (R107, R111, R175, R176). -/
def Obligations.ZoneAndWatchRequests : Prop :=
  (∀ (ch : Channel) (rq : Request) (g : Grant) (z : ZoneNo) (lock mute : Bool) (s : State),
    StoreTurn .setZoneAttributes ch rq g s → s.walkerAtRest → parseZoneAttributes rq.body = some (z, lock, mute) →
    exec (.setZoneAttributes ch) s = .next (State.finishStore ch rq .ok []
      { s with store := { s.store with zones := vmod s.store.zones z (fun zn => { zn with claimLock := lock, noticeMute := mute }) } })) ∧
  (∀ (ch : Channel) (rq : Request) (g : Grant) (z : ZoneNo) (s : State), StoreTurn .zoneSummary ch rq g s → s.walkerAtRest →
    parseZoneNo rq.body = some z →
    exec (.zoneSummary ch) s = .next (s.finishStore ch rq .ok
      (byte1 (s.zone z).active.collect ++ byte1 (s.zone z).active.urgent ++ byte1 (vget g.staged z).collect
        ++ byte1 (vget g.staged z).urgent ++ flagsByte [(s.zone z).claimLock, (s.zone z).noticeMute, (s.zone z).rescan]
        ++ byte1 (members (s.zone z).watchers).length ++ (members (s.zone z).watchers).flatMap (fun c => byte1 c.val)
        ++ byte2 (s.zone z).counters.records ++ byte2 (s.zone z).counters.readyMembers ++ byte2 (s.zone z).counters.urgent
        ++ byte2 (s.zone z).counters.claimed ++ byte2 (s.zone z).counters.silent ++ byte2 (s.zone z).counters.faulted
        ++ (List.finRange 10).flatMap (fun i => byte2 (vget (s.zone z).counters.bands i))))) ∧
  (∀ (ch : Channel) (rq : Request) (g : Grant) (z : ZoneNo) (s : State), StoreTurn .watch ch rq g s → s.walkerAtRest →
    parseZoneNo rq.body = some z →
    exec (.watch ch) s = .next (State.finishStore ch rq .ok []
      { s with store := { s.store with zones := vmod s.store.zones z (fun zn => { zn with watchers := vset zn.watchers ch true }) } })) ∧
  ∀ (ch : Channel) (rq : Request) (g : Grant) (z : ZoneNo) (s : State), StoreTurn .unwatch ch rq g s → s.walkerAtRest →
    parseZoneNo rq.body = some z →
    exec (.unwatch ch) s = .next (State.finishStore ch rq .ok []
      { s with store := { s.store with zones := vmod s.store.zones z (fun zn => { zn with watchers := vset zn.watchers ch false }) } })

/-! ### Routes -/

/-- The checks of CLAIM in their order (R116, R117), each refusal changing nothing: NOT_RUNNING, BAD_REQUEST, DUPLICATE_TAG, ROUTES_FULL, and the refusal list of
every failing position, each entry sent as the eight bytes of Table 11.11 (R197). A CLAIM whose reads meet damage
(R118): a damaged index entry or key group halts the device with the answer HALTED and no route made; a damaged reading group poisons the record, its position fails
with POISONED, and the corrections, the poisonings and their notices stand although the CLAIM is refused. -/
def Obligations.ClaimChecksInOrder : Prop :=
  (∀ e : RefusalEntry, refusalBytes e = byte1 e.position ++ byte4 e.bin.toNat ++
    (match e.reason with
      | .repeated => byte1 1 ++ byte1 255 ++ byte1 255
      | .unknown => byte1 2 ++ byte1 255 ++ byte1 255
      | .poisoned => byte1 3 ++ byte1 255 ++ byte1 255
      | .claimed i owner => byte1 4 ++ byte1 i.val ++ byte1 owner.val
      | .zoneLocked => byte1 5 ++ byte1 255 ++ byte1 255) ∧ (refusalBytes e).length = 8) ∧
  ∀ (ch : Channel) (rq : Request) (g : Grant) (s : State), StoreTurn .claim ch rq g s → s.walkerAtRest →
    (s.control.condition = .config → exec (.claim ch) s = .next (s.finishStore ch rq .notRunning [])) ∧
    (s.control.condition = .running → parseClaim rq.body = none → exec (.claim ch) s = .next (s.finishStore ch rq .badRequest [])) ∧
    ∀ q : ClaimReq, s.control.condition = .running → parseClaim rq.body = some q →
      ((∃ j rt, vget s.store.routes j = some rt ∧ rt.owner = ch ∧ rt.tag = q.tag) →
        exec (.claim ch) s = .next (s.finishStore ch rq .duplicateTag [])) ∧
      ((∀ j rt, vget s.store.routes j = some rt → ¬ (rt.owner = ch ∧ rt.tag = q.tag)) →
        (∀ j, vget s.store.routes j ≠ none) → exec (.claim ch) s = .next (s.finishStore ch rq .routesFull [])) ∧
      ((∀ j rt, vget s.store.routes j = some rt → ¬ (rt.owner = ch ∧ rt.tag = q.tag)) →
        (∃ j, vget s.store.routes j = none) → s.store.sound → claimRefusals s.store q.bins ≠ [] →
        exec (.claim ch) s = .next (s.finishStore ch rq .refused
          (byte1 (claimRefusals s.store q.bins).length ++ (claimRefusals s.store q.bins).flatMap refusalBytes))) ∧
      ((∀ j rt, vget s.store.routes j = some rt → ¬ (rt.owner = ch ∧ rt.tag = q.tag)) → (∃ j, vget s.store.routes j = none) →
        let w := claimReads q.bins (workOf s g)
        (w.halting = true → ∃ t, exec (.claim ch) s = .next t ∧ HaltedAnswer ch rq g w s t) ∧
        (w.halting = false → s.tablesInOrder → claimRefusals w.store q.bins ≠ [] →
          ∃ t, exec (.claim ch) s = .next t ∧
            Answered ch rq .refused
              (byte1 (claimRefusals w.store q.bins).length ++ (claimRefusals w.store q.bins).flatMap refusalBytes) s t ∧
            WorkStands w s t ∧ t.exportUnit = s.exportUnit) ∧
        ∀ (earlier later : List BinNumber) (b : BinNumber) (slot : Nat) (r : BinRecord), w.halting = false → s.tablesInOrder →
          q.bins = earlier ++ b :: later → b ∉ earlier → s.store.holds b slot r → r.readingHealth = .double →
          sfind slot w.store.slots = some (poisonedFrom r) ∧ ⟨earlier.length + 1, b, .poisoned⟩ ∈ claimRefusals w.store q.bins)

/-- A granted CLAIM (R119): the lowest FREE entry becomes a route of the channel with its members PENDING in position order and the deadline capped; each record is claimed and evaluated, its zone's claimed counter raised;
every other record and route, the Bin Index and the zones' settings are as before. The notices are those of the evaluations in their claim form, in position order: no
WITHDRAWN, and URGENT to the owner (R97, R98, R100, R119; their value is that of log entry 10). -/
def Obligations.ClaimGranted : Prop :=
  ∀ (ch : Channel) (rq : Request) (g : Grant) (q : ClaimReq) (i : RouteIdx) (slots : List Nat) (s : State),
    StoreTurn .claim ch rq g s → s.store.sound → s.control.condition = .running → parseClaim rq.body = some q →
    (∀ j rt, vget s.store.routes j = some rt → ¬ (rt.owner = ch ∧ rt.tag = q.tag)) →
    vget s.store.routes i = none → (∀ j < i, vget s.store.routes j ≠ none) → q.bins.Nodup → slots.length = q.bins.length →
    (∀ p ∈ q.bins.zip slots, ∃ r, s.store.holds p.1 p.2 r ∧ r.key.bin = p.1 ∧ r.key.state ≠ .poisoned ∧ r.key.claim = none ∧
      (s.zone r.key.zone).claimLock = false) →
    let d := BitVec.ofNat 32 (min (g.clock.toNat + q.hold) 4294967295)
    ∃ t, exec (.claim ch) s = .next t ∧ Answered ch rq .granted (byte1 i.val ++ byte4 d.toNat) s t ∧
      vget t.store.routes i = some
        { owner := ch, tag := q.tag, created := g.clock, deadline := d,
          members := (q.bins.zip slots).map (fun p => ⟨p.1, p.2, .pending⟩) } ∧
      vget t.expiry.deadlines i = some d ∧ OtherRoutesKept i s t ∧
      (∀ slot ∈ slots, ∀ r, sfind slot s.store.slots = some r →
        sfind slot t.store.slots = some (evaluated (s.zone r.key.zone) { r with key := { r.key with claim := some i } })) ∧
      (∀ n : Nat, n ∉ slots → sfind n t.store.slots = sfind n s.store.slots) ∧
      (∀ z : ZoneNo, (t.zone z).counters.claimed = (s.zone z).counters.claimed +
        slots.countP (fun n => match sfind n s.store.slots with | some r => r.key.zone == z | none => false)) ∧
      (s.walkerAtRest → Offered (slots.flatMap (fun n =>
        match sfind n s.store.slots with
        | some r =>
          evaluationNotices true (s.zone r.key.zone) t.store.routes g.clock { r with key := { r.key with claim := some i } }
        | none => [])) s t) ∧
      IndexKept s t ∧ t.profiles.users = s.profiles.users ∧ t.updateQueue = s.updateQueue ∧ t.expiry.dueList = s.expiry.dueList ∧
      ZoneSettingsKept s t ∧ LinksAndSettingsKept s t

/-- EXTEND replaces the deadline of a route the channel holds, with its copy, and ROUTE STATUS answers with the route's record, each member as the eleven bytes
of Table 11.8; a route that is not named is NO_ROUTE (R121, R122, R125, R132). -/
def Obligations.ExtendAndRouteStatus : Prop :=
  (∀ (ch : Channel) (rq : Request) (g : Grant) (i : RouteIdx) (tag : Word16) (m : Nat) (s : State), StoreTurn .extend ch rq g s →
    s.walkerAtRest → parseExtend rq.body = some (i, tag, m) →
    ((∀ rt, vget s.store.routes i = some rt → ¬ (rt.owner = ch ∧ rt.tag = tag)) →
      exec (.extend ch) s = .next (s.finishStore ch rq .noRoute [])) ∧
    ∀ rt, vget s.store.routes i = some rt → rt.owner = ch → rt.tag = tag →
      let d := BitVec.ofNat 32 (min (g.clock.toNat + m) 4294967295)
      exec (.extend ch) s = .next (State.finishStore ch rq .ok (byte4 d.toNat)
        { s with
          store := { s.store with routes := vset s.store.routes i (some { rt with deadline := d }) }
          expiry := { s.expiry with deadlines := vset s.expiry.deadlines i (some d) } })) ∧
  ∀ (ch : Channel) (rq : Request) (g : Grant) (i : RouteIdx) (s : State), StoreTurn .routeStatus ch rq g s → s.walkerAtRest →
    parseRouteStatus rq.body = some i →
    ((∀ rt, vget s.store.routes i = some rt → rt.owner ≠ ch) →
      exec (.routeStatus ch) s = .next (s.finishStore ch rq .noRoute [])) ∧
    ∀ rt, vget s.store.routes i = some rt → rt.owner = ch →
      exec (.routeStatus ch) s = .next (s.finishStore ch rq .ok
        (byte1 i.val ++ byte2 rt.tag.toNat ++ byte4 rt.created.toNat ++ byte4 rt.deadline.toNat ++ byte1 rt.members.length
          ++ rt.members.flatMap memberBytes)) ∧
      ∀ m : Member, memberBytes m =
        byte4 m.bin.toNat ++ byte2 m.slot ++
          (match m.state with
            | .pending => byte1 0 ++ byte4 0
            | .done u => byte1 1 ++ byte4 u.toNat
            | .released => byte1 2 ++ byte4 0
            | .lost => byte1 3 ++ byte4 0) ∧ (memberBytes m).length = 11

/-- RELEASE of every PENDING member, or of those of a bin list (R123, R124, R129): each member taken is RELEASED and its record freed, or, where the read finds
the reading group damaged beyond correction, LOST and its record poisoned; the positions of the list that name no PENDING member are sent back, and a position so poisoned
is counted neither there nor as released (log entry 24); the route ends when no member remains PENDING. The notices are those of the released records' evaluations, in
member order or, with a bin list, in list order, then those of the poisonings met, then the ROUTE_ENDED of a route that ends (R100, R109, R124; their value is that of
log entry 10). A damaged key group halts the device with the answer HALTED: the members taken before stay in their new state and the route stays HELD (R193). -/
def Obligations.ReleaseFreesMembers : Prop :=
  ∀ (ch : Channel) (rq : Request) (g : Grant) (i : RouteIdx) (tag : Word16) (bins : Option (List BinNumber)) (s : State),
    StoreTurn .release ch rq g s → parseRelease rq.body = some (i, tag, bins) →
    ((∀ rt, vget s.store.routes i = some rt → ¬ (rt.owner = ch ∧ rt.tag = tag)) → s.walkerAtRest →
      exec (.release ch) s = .next (s.finishStore ch rq .noRoute [])) ∧
    ∀ rt, vget s.store.routes i = some rt → rt.owner = ch → rt.tag = tag → membersHeld i rt s →
      let notPending : List Nat := match bins with
        | none => []
        | some l => (l.zipIdx.filter (fun (p : BinNumber × Nat) =>
            !(rt.members.any (fun m => m.bin == p.1 && m.state == .pending)) || (l.take p.2).contains p.1)).map (fun p => p.2 + 1)
      let taken : List Member := match bins with
        | none => rt.members.filter (fun m => m.state == .pending)
        | some l => l.zipIdx.filterMap (fun (p : BinNumber × Nat) =>
            if (l.take p.2).contains p.1 then none else rt.members.find? (fun m => m.bin == p.1 && m.state == .pending))
      let after := membersTaken s.store taken rt.members
      (s.store.keysReadable (taken.map Member.slot) → ∃ t, exec (.release ch) s = .next t ∧
        Answered ch rq .ok (byte1 notPending.length ++ notPending.flatMap byte1
          ++ byte1 (taken.filter (fun m => !s.store.readingLost m.slot)).length ++ flagByte (!anyPending after)) s t ∧
        (s.walkerAtRest → Offered (s.releaseNotices taken g.clock ++ lastMemberNotices i rt after g.clock) s t) ∧
        vget t.store.routes i = routeAfter rt after ∧
        vget t.expiry.deadlines i = (if anyPending after then vget s.expiry.deadlines i else none) ∧ OtherRoutesKept i s t ∧
        MembersFreed taken s t ∧ IndexKept s t ∧ t.profiles.users = s.profiles.users ∧ t.updateQueue = s.updateQueue ∧
        t.expiry.dueList = s.expiry.dueList ∧ ZoneSettingsKept s t ∧ LinksAndSettingsKept s t) ∧
      ∀ (before later : List Member) (m : Member) (r : BinRecord), taken = before ++ m :: later →
        s.store.keysReadable (before.map Member.slot) → sfind m.slot s.store.slots = some r → r.keyHealth = .double →
        ∃ t, exec (.release ch) s = .next t ∧ Answered ch rq .halted [] s t ∧ t.updateQueue = s.updateQueue ∧
          ReleaseHalted i rt before m.slot g s t

/-- CONFIRM (R126, R127): its refusals in their order change nothing; accepted, it applies an emptying reported by the channel and hands the member
over as DONE with the measured time. The notices are MEMBER_DONE, then the ROUTE_ENDED of a route that ends, then those of the evaluation (R127; their value is that of
log entry 10). A damaged key group halts the device with the answer HALTED (R31, R126(d)). A damaged reading group poisons the record: its member is LOST, and the answer
is POISONED (R126(d), R192). -/
def Obligations.ConfirmHandsOver : Prop :=
  ∀ (ch : Channel) (rq : Request) (g : Grant) (q : ConfirmReq) (s : State), StoreTurn .confirm ch rq g s →
    parseConfirm rq.body = some q →
    ((∀ rt, vget s.store.routes q.route = some rt → ¬ (rt.owner = ch ∧ rt.tag = q.tag)) → s.walkerAtRest →
      exec (.confirm ch) s = .next (s.finishStore ch rq .noRoute [])) ∧
    ∀ rt, vget s.store.routes q.route = some rt → rt.owner = ch → rt.tag = q.tag →
      ((∀ m ∈ rt.members, m.bin = q.bin → m.state ≠ .pending) → s.walkerAtRest →
        exec (.confirm ch) s = .next (s.finishStore ch rq .notPending [])) ∧
      ∀ (slot : Nat) (r : BinRecord), (rt.members.map Member.bin).Nodup → ⟨q.bin, slot, .pending⟩ ∈ rt.members →
        sfind slot s.store.slots = some r → r.key.bin = q.bin → r.key.claim = some q.route →
        let stale := ∃ u, r.reading.emptiedTime = some u ∧ q.time.toNat ≤ u.toNat
        let reading := readingAfterEmptying (vget s.profiles.active r.key.profile) q.time q.residual (.channel ch) r.reading
        let after := membersAfter (.done q.time) (fun b => b == q.bin) rt.members
        let emptied : BinRecord := { r with
          key := { r.key with state := if r.key.state = .new ∨ r.key.state = .silent then .live else r.key.state, claim := none }
          reading := reading }
        (r.keyHealth = .double → ∃ t, exec (.confirm ch) s = .next t ∧ HaltedAnswer ch rq g (readGroups true slot (workOf s g)) s t) ∧
        (r.keyHealth ≠ .double → r.readingHealth = .double → ∃ t, exec (.confirm ch) s = .next t ∧
          Answered ch rq .poisoned [] s t ∧ PoisonedBy slot r g s t) ∧
        (s.store.sound → r.key.state = .poisoned → s.walkerAtRest → exec (.confirm ch) s = .next (s.finishStore ch rq .poisoned [])) ∧
        (s.store.sound → r.key.state ≠ .poisoned → g.clock.toNat + 2 < q.time.toNat → s.walkerAtRest →
          exec (.confirm ch) s = .next (s.finishStore ch rq .future [])) ∧
        (s.store.sound → r.key.state ≠ .poisoned → q.time.toNat ≤ g.clock.toNat + 2 → stale → s.walkerAtRest →
          exec (.confirm ch) s = .next (s.finishStore ch rq .stale [])) ∧
        (s.store.sound → r.key.state ≠ .poisoned → q.time.toNat ≤ g.clock.toNat + 2 → ¬ stale →
          ∃ t, exec (.confirm ch) s = .next t ∧
            Answered ch rq .ok (byte1 (match reading.fill with | some f => f.percent | none => 0) ++ flagByte (!anyPending after)) s t ∧
            sfind slot t.store.slots = some (evaluated (s.zone r.key.zone) emptied) ∧
            (s.walkerAtRest → Offered (handOverNotices s.store.routes q.route q.time emptied g.clock
              ++ evaluationNotices false (s.zone r.key.zone) s.store.routes g.clock emptied) s t) ∧
            vget t.store.routes q.route = routeAfter rt after ∧
            vget t.expiry.deadlines q.route = (if anyPending after then vget s.expiry.deadlines q.route else none) ∧
            OtherRoutesKept q.route s t ∧
            (t.zone r.key.zone).counters.claimed = (s.zone r.key.zone).counters.claimed - 1 ∧ OtherRecordsKept slot s t ∧
            IndexKept s t ∧ t.profiles.users = s.profiles.users ∧ t.updateQueue = s.updateQueue ∧ ZoneSettingsKept s t ∧
            LinksAndSettingsKept s t)

/-! ### Exports -/

/-- EXPORT (R154 to R156): its refusals in their order change nothing; otherwise the first members of the ready list are copied in list order, their rows
leave the pool, and the channel's place is OPEN. An EXPORT whose reads meet damage (R157): a damaged reading group poisons the record, whose row is POISONED and without
reading, the notices of the poisonings following in the order of the rows; a damaged key group halts the device with the answer HALTED and opens no export. -/
def Obligations.ExportOpens : Prop :=
  ∀ (ch : Channel) (rq : Request) (g : Grant) (z : ZoneNo) (most : Nat) (s : State), StoreTurn .zoneExport ch rq g s → s.walkerAtRest →
    parseZoneExport rq.body = some (z, most) →
    let n := min most (s.zone z).counters.readyMembers
    let rows := ((s.zone z).readyList.take n).filterMap (fun slot => (sfind slot s.store.slots).map (fun r =>
      ({ bin := r.key.bin, slot := slot, zone := r.key.zone, kind := r.key.kind, state := r.key.state, fill := r.reading.fill,
         urgent := r.key.urgent, batteryLow := r.reading.batteryLow } : ExportRow)))
    (s.control.condition = .config → exec (.zoneExport ch) s = .next (s.finishStore ch rq .notRunning [])) ∧
    (s.control.condition = .running → n = 0 → exec (.zoneExport ch) s = .next (s.finishStore ch rq .empty [])) ∧
    (s.control.condition = .running → n ≠ 0 → s.place ch ≠ none → exec (.zoneExport ch) s = .next (s.finishStore ch rq .exportOpen [])) ∧
    (s.control.condition = .running → n ≠ 0 → s.place ch = none → g.freeRows < n →
      exec (.zoneExport ch) s = .next (s.finishStore ch rq .noRoom (byte2 g.freeRows))) ∧
    (s.control.condition = .running → n ≠ 0 → s.place ch = none → n ≤ g.freeRows → s.store.sound → s.store.readyInOrder →
      rows.length = n ∧
      exec (.zoneExport ch) s = .next (State.finishStore ch rq .ok (byte2 n ++ byte1 z.val ++ byte4 g.clock.toNat)
        { s with exportUnit :=
          { freeRows := s.exportUnit.freeRows - n, places := vset s.exportUnit.places ch (some ⟨z, rows, g.clock⟩) } })) ∧
    (s.control.condition = .running → n ≠ 0 → s.place ch = none → n ≤ g.freeRows → s.tablesInOrder →
      let slots := (s.zone z).readyList.take n
      let read := slots.filterMap (fun slot => (sfind slot s.store.slots).map (exportedRow slot))
      let w := exportReads slots (workOf s g)
      (¬ s.store.keysReadable slots → ∃ t, exec (.zoneExport ch) s = .next t ∧ HaltedAnswer ch rq g w s t ∧ t.exportUnit = s.exportUnit) ∧
      (s.store.keysReadable slots → read.length = n ∧
        ∃ t, exec (.zoneExport ch) s = .next t ∧ Answered ch rq .ok (byte2 n ++ byte1 z.val ++ byte4 g.clock.toNat) s t ∧
          t.exportUnit =
            { freeRows := s.exportUnit.freeRows - n, places := vset s.exportUnit.places ch (some ⟨z, read, g.clock⟩) } ∧
          WorkStands w s t ∧ t.store.routes = s.store.routes ∧
          (∀ slot ∈ slots, ∀ r, sfind slot s.store.slots = some r →
            sfind slot t.store.slots =
              some (if r.readingHealth = .double then poisonedFrom r else { r with keyHealth := .sound, readingHealth := .sound })) ∧
          (∀ k : Nat, k ∉ slots → sfind k t.store.slots = sfind k s.store.slots) ∧
          w.out = slots.flatMap (fun slot =>
            match sfind slot s.store.slots with
            | some r => if r.readingHealth = .double then poisonNotices true (s.zone r.key.zone) s.store.routes g.clock r else []
            | none => [])))

/-- FETCH hands out the first rows of the channel's export, frees them, and closes the place at the last one (R159). ABORT EXPORT frees the remaining rows
and closes the place (R160). An export item: an export still OPEN and idle, by the clock read at the grant, is closed, its rows freed and EXPORT_ABANDONED given to its
owner; otherwise the item is dropped with no other change (R162). That the export place and the idle limit are those at the end of the item's grant is the model's choice
(log entry 16). A row is sent as the fifteen bytes of Table 11.10. -/
def Obligations.FetchAbortAndAbandonFreeRows : Prop :=
  (∀ (ch : Channel) (rq : Request) (n : Nat) (s : State), LocalTurn .fetch ch rq s → parseCount 16 rq.body = some n →
    (s.place ch = none → exec (.fetch ch) s = .next (s.finishLocal ch rq .noExport [])) ∧
    ∀ e : OpenExport, s.place ch = some e →
      exec (.fetch ch) s = .next (State.finishLocal ch rq .ok
        (byte1 (min n e.rows.length) ++ byte2 (e.rows.length - n) ++ flagByte (decide (e.rows.length ≤ n))
          ++ (e.rows.take n).flatMap exportRowBytes)
        { s with exportUnit :=
          { freeRows := s.exportUnit.freeRows + min n e.rows.length
            places := vset s.exportUnit.places ch
              (if e.rows.length ≤ n then none else some ⟨e.zone, e.rows.drop n, s.clock.minute⟩) } })) ∧
  (∀ r : ExportRow, exportRowBytes r =
    byte4 r.bin.toNat ++ byte2 r.slot ++ byte1 r.zone.val
      ++ byte1 (match r.kind with | .litter => 0 | .glassClear => 1 | .glassGreen => 2 | .glassBrown => 3)
      ++ byte1 (match r.state with | .new => 0 | .live => 1 | .silent => 2 | .faulted => 3 | .poisoned => 4)
      ++ byte1 (r.fill.isSome.toNat + 2 * r.urgent.toNat + 4 * r.batteryLow.toNat)
      ++ (match r.fill with | some f => byte1 f.percent ++ byte4 f.time.toNat | none => byte1 0 ++ byte4 0) ∧
    (exportRowBytes r).length = 15) ∧
  (∀ (ch : Channel) (rq : Request) (s : State), LocalTurn .abortExport ch rq s → rq.body = [] →
    (s.place ch = none → exec (.abortExport ch) s = .next (s.finishLocal ch rq .noExport [])) ∧
    ∀ e : OpenExport, s.place ch = some e →
      exec (.abortExport ch) s = .next (State.finishLocal ch rq .ok (byte2 e.rows.length)
        { s with exportUnit :=
          { freeRows := s.exportUnit.freeRows + e.rows.length, places := vset s.exportUnit.places ch none } })) ∧
  ∀ (ch : Channel) (g : Grant) (s : State), DueTurn (.zoneExport ch) g s → s.walkerAtRest →
    ((∀ e, s.place ch = some e → g.clock.toNat < e.lastActivity.toNat + s.control.params.idleLimit) →
      exec .exportAbandoned s = .next
        (State.idled { s with expiry := { s.expiry with dueList := s.expiry.dueList.tail } }).look) ∧
    ∀ e, s.place ch = some e → e.lastActivity.toNat + s.control.params.idleLimit ≤ g.clock.toNat →
      exec .exportAbandoned s = .next
        (State.offer ch ⟨.exportAbandoned, some e.zone, none, none, g.clock, some (.rowsFreed e.rows.length)⟩
          { s with
            expiry := { s.expiry with dueList := s.expiry.dueList.tail }
            exportUnit := { freeRows := s.exportUnit.freeRows + e.rows.length, places := vset s.exportUnit.places ch none } }).idled.look

/-! ### Notices and resets of channels -/

/-- A notice offered to a channel (R171): masked out it has no effect; while the overflow flag is set it is dropped; a queued entry of the same kind and
key takes its content in place; otherwise it joins the queue, or, with 32 entries there, is dropped and sets the flag. -/
def Obligations.NoticeOffered : Prop :=
  ∀ (ch : Channel) (n : Notice) (s : State),
    let c := s.chan ch
    let wanted := c.mask.getLsbD (noticeCode n.kind)
    (wanted = false → s.offer ch n = s) ∧
    (wanted = true → c.overflow = true → s.offer ch n = s.bump .noticesDropped) ∧
    (wanted = true → c.overflow = false → (∃ e ∈ c.notices, sameNotice e n = true) →
      s.offer ch n = s.modChan ch (fun c => { c with notices := c.notices.map (fun e =>
        if sameNotice e n = true then { e with zone := n.zone, route := n.route, minute := n.minute, value := n.value } else e) })) ∧
    (wanted = true → c.overflow = false → (∀ e ∈ c.notices, sameNotice e n = false) → c.notices.length < 32 →
      s.offer ch n = s.modChan ch (fun c => { c with notices := c.notices ++ [n], attn := true })) ∧
    (wanted = true → c.overflow = false → (∀ e ∈ c.notices, sameNotice e n = false) → 32 ≤ c.notices.length →
      s.offer ch n = (s.modChan ch (fun c => { c with overflow := true })).bump .noticesDropped)

/-- SET NOTICE MASK writes the channel's mask, and TAKE NOTICES takes its oldest entries (R172 to R174), each sent as the eighteen bytes of Table 11.11. -/
def Obligations.MaskAndTakeNotices : Prop :=
  (∀ n : Notice, noticeBytes n =
    byte1 (match n.kind with
      | .ready => 0 | .urgent => 1 | .withdrawn => 2 | .silent => 3 | .faulted => 4 | .batteryLow => 5 | .unplannedEmpty => 6
      | .poisoned => 7 | .stray => 8 | .memberDone => 9 | .memberLost => 10 | .routeEnded => 11 | .exportAbandoned => 12
      | .rescanDone => 13 | .recalDone => 14 | .deviceHalted => 15)
    ++ byte1 (n.zone.isSome.toNat + 2 * n.bin.isSome.toNat + 4 * n.route.isSome.toNat + 8 * n.value.isSome.toNat)
    ++ byte1 (match n.zone with | some z => z.val | none => 0) ++ byte1 (match n.route with | some i => i.val | none => 0)
    ++ byte4 (match n.bin with | some b => b.toNat | none => 0) ++ byte4 n.minute.toNat
    ++ (match n.value with
      | none => List.replicate 6 0#8
      | some (.fill p) => byte1 p ++ List.replicate 5 0#8
      | some (.concentrator c) => byte2 c.toNat ++ List.replicate 4 0#8
      | some (.routeEnd tag st d r l) =>
        byte2 tag.toNat ++ byte1 (match st with | .complete => 0 | .closed => 1 | .expired => 2) ++ byte1 d ++ byte1 r ++ byte1 l
      | some (.rowsFreed n) => byte2 n ++ List.replicate 4 0#8) ∧ (noticeBytes n).length = 18) ∧
  (∀ (ch : Channel) (rq : Request) (hi lo : Byte) (s : State), LocalTurn .setNoticeMask ch rq s → rq.body = [hi, lo] →
    exec (.setNoticeMask ch) s = .next (State.finishLocal ch rq .ok [] (s.modChan ch (fun c => { c with mask := be16 hi lo })))) ∧
  ∀ (ch : Channel) (rq : Request) (n : Nat) (s : State), LocalTurn .takeNotices ch rq s → parseCount 8 rq.body = some n →
    exec (.takeNotices ch) s = .next (State.finishLocal ch rq .ok
      (byte1 (min n (s.chan ch).notices.length) ++ byte1 ((s.chan ch).notices.length - n) ++ flagByte (s.chan ch).overflow
        ++ ((s.chan ch).notices.take n).flatMap noticeBytes)
      (s.modChan ch (fun c => { c with
        notices := c.notices.drop n
        overflow := if c.notices.length ≤ n then false else c.overflow
        attn := decide (n < c.notices.length) })))

/-- CHANNEL RESET of a target channel (R37, R39, R112(c), R131, R163(c), R177 to R179): its queue is purged, it watches no zone, its export is closed, its routes
end without ROUTE_ENDED, and its notice queue is emptied; in HALTED its routes are kept. The zones' counters and ready lists still count and list their records (R93 to
R97). The notices are those of the freed records' evaluations, to the watchers that remain, then those of the poisonings met; they are offered after the target's queue
has been emptied, and every other channel's queue is otherwise as before. A damaged key group halts the device with the answer HALTED, the reset done as far as it had come
and the target's notice queue emptied all the same (R178, R193). -/
def Obligations.ChannelResetClearsTarget : Prop :=
  ∀ (ch : Channel) (rq : Request) (g : Grant) (target : Channel) (s : State), StoreTurn .channelReset ch rq g s → s.walkerAtRest →
    parseTarget rq.body = some target →
    let purged := if target = ch then (s.chan target).queue.tail else (s.chan target).queue
    let ended := if s.control.condition = .halted then 0 else (List.finRange 64).countP (s.ownedBy target)
    let taken := s.resetMembers target
    (s.store.sound ∨ s.tablesInOrder ∧ s.store.keysReadable (taken.map Member.slot) →
    ∃ t, exec (.channelReset ch) s = .next t ∧
      t.plannerPort.responses = s.plannerPort.responses ++ purged.map (fun p => responseTo target p .purged [])
        ++ [responseTo ch rq .ok (byte1 purged.length ++ byte1 ended ++ byte2 (rowsOf (s.place target)).length)] ∧
      (∀ c : Channel, (t.chan c).queue =
        if c = target then [] else if c = ch then (s.chan c).queue.tail else (s.chan c).queue) ∧
      (s.store.sound → (t.chan target).notices = [] ∧ (t.chan target).overflow = false ∧ (t.chan target).attn = false) ∧
      (s.tablesInOrder → Offered ((s.unwatchAll target).releaseNotices taken g.clock) (s.modChan target emptyNotices) t) ∧
      (∀ c : Channel, (t.chan c).mask = (s.chan c).mask) ∧
      (∀ (z : ZoneNo) (c : Channel), vget (t.zone z).watchers c = (vget (s.zone z).watchers c && c != target)) ∧
      (∀ c : Channel, t.place c = if c = target then none else s.place c) ∧
      t.exportUnit.freeRows = s.exportUnit.freeRows + (rowsOf (s.place target)).length ∧
      t.control.condition = s.control.condition ∧ t.control.haltLine = s.control.haltLine ∧ t.control.params = s.control.params ∧
      t.clock = s.clock ∧ t.fieldPort = s.fieldPort ∧ t.updateQueue = s.updateQueue ∧ t.profiles = s.profiles ∧ t.walker = s.walker ∧
      t.expiry.dueList = s.expiry.dueList ∧ IndexKept s t ∧ (s.tablesInOrder → t.countsAgree ∧ t.countersAgree ∧ t.store.readyInOrder) ∧
      (s.control.condition = .halted →
        t.store.slots = s.store.slots ∧ t.store.routes = s.store.routes ∧ t.expiry = s.expiry) ∧
      (s.control.condition ≠ .halted →
        (∀ i : RouteIdx, vget t.store.routes i = (if s.ownedBy target i = true then none else vget s.store.routes i) ∧
          vget t.expiry.deadlines i = (if s.ownedBy target i = true then none else vget s.expiry.deadlines i)) ∧
        (∀ m ∈ taken, ∀ r, sfind m.slot s.store.slots = some r → r.key.state ≠ .poisoned →
          sfind m.slot t.store.slots = some (releasedFrom (s.zone r.key.zone) r)) ∧
        ∀ n : Nat, (∀ m ∈ taken, m.slot ≠ n) → sfind n t.store.slots = sfind n s.store.slots)) ∧
    ∀ (before later : List Member) (m : Member) (r : BinRecord), taken = before ++ m :: later → s.tablesInOrder →
      s.store.keysReadable (before.map Member.slot) → sfind m.slot s.store.slots = some r → r.keyHealth = .double →
      ∃ t, exec (.channelReset ch) s = .next t ∧
        t.plannerPort.responses = s.plannerPort.responses ++ purged.map (fun p => responseTo target p .purged [])
          ++ [responseTo ch rq .halted []] ∧
        t.control.condition = .halted ∧ EnteredHalted g t ∧
        Offered ((s.unwatchAll target).releaseNotices before g.clock ++ haltNotices g.clock) (s.modChan target emptyNotices) t ∧
        (∀ (i : RouteIdx) (rt : Route), vget s.store.routes i = some rt →
          vget t.store.routes i = (if rt.owner = target then routeAfter rt (membersTaken s.store before rt.members) else some rt)) ∧
        (∀ x ∈ before, ∀ q, sfind x.slot s.store.slots = some q →
          sfind x.slot t.store.slots = some (releasedFrom (s.zone q.key.zone) q)) ∧
        ∀ n : Nat, n ≠ m.slot → (∀ x ∈ before, x.slot ≠ n) → sfind n t.store.slots = sfind n s.store.slots

/-! ### Device Control and the clock -/

/-- START (R183), SET PARAMETERS (R186) and STATUS (R187). -/
def Obligations.StartParametersStatus : Prop :=
  (∀ (ch : Channel) (rq : Request) (g : Grant) (s : State), StoreTurn .start ch rq g s → s.walkerAtRest → rq.body = [] →
    exec (.start ch) s = .next
      (if s.control.condition = .config then
        State.finishStore ch rq .ok [] { s with control := { s.control with condition := .running } }
       else s.finishStore ch rq .notConfig [])) ∧
  (∀ (ch : Channel) (rq : Request) (a i g : Byte) (s : State), LocalTurn .setParameters ch rq s → rq.body = [a, i, g] →
    exec (.setParameters ch) s = .next
      (if a.toNat ∈ [1, 5, 15, 60] ∧ 1 ≤ i.toNat ∧ i.toNat ≤ 60 ∧ 1 ≤ g.toNat then
        State.finishLocal ch rq .ok []
          { s with control := { s.control with
              params := { ageInterval := a.toNat, idleLimit := i.toNat, gapLimit := g.toNat } } }
       else s.finishLocal ch rq .badRequest [])) ∧
  ∀ (ch : Channel) (rq : Request) (s : State), LocalTurn .status ch rq s → rq.body = [] →
    exec (.status ch) s = .next (s.finishLocal ch rq .ok (statusBytes s)) ∧ (statusBytes s).length = 115 ∧
    statusBytes s = byte1 (conditionCode s.control.condition) ++ byte4 s.clock.minute.toNat ++ byte1 s.control.params.ageInterval
      ++ byte1 s.control.params.idleLimit ++ byte1 s.control.params.gapLimit ++ flagByte s.control.haltLine
      ++ byte2 s.store.slots.length ++ byte2 s.store.overflow.length
      ++ byte1 ((List.finRange 64).countP (fun i => (vget s.store.routes i).isSome)) ++ byte2 s.exportUnit.freeRows
      ++ byte1 s.updateQueue.length ++ byte1 (runningJobCode s.walker.running)
      ++ flagsByte [s.walker.pendingRecal.isSome, s.walker.pendingRescan.isSome, s.walker.pendingAge]
      ++ s.control.counters.toList.flatMap (fun c => byte4 c.toNat)

/-- TABLE RESET (R24(b), R38, R89, R112(b), R136(b), R163(b), R180(c), R184): the device is in CONFIG with its tables, counts, queues and due list empty;
the other channels' requests are purged; profiles, thresholds, attributes, watchers, masks, parameters, counters and the clock are kept. That the emptied tables hold no
damage is the model's choice (log entry 7). -/
def Obligations.TableResetEmptiesTables : Prop :=
  ∀ (ch : Channel) (rq : Request) (g : Grant) (s : State), StoreTurn .tableReset ch rq g s → rq.body = [] →
    ch = 0 ∧ ∃ t, exec (.tableReset ch) s = .next t ∧
      t.plannerPort.responses = s.plannerPort.responses
        ++ ([1, 2, 3, 4, 5, 6, 7] : List Channel).flatMap (fun c => (s.chan c).queue.map (fun p => responseTo c p .purged []))
        ++ [responseTo 0 rq .ok []] ∧
      (∀ c : Channel, t.chan c =
        { queue := if c = 0 then (s.chan 0).queue.tail else [], notices := [], overflow := false, mask := (s.chan c).mask, attn := false }) ∧
      t.control = { condition := .config, haltLine := false, params := s.control.params, counters := s.control.counters } ∧
      t.store.slots = [] ∧ t.store.ways = [] ∧ t.store.overflow = [] ∧ t.store.sound ∧
      (∀ z : ZoneNo, t.zone z = { s.zone z with
        rescan := false, readyList := [], counters := ⟨0, 0, 0, 0, 0, 0, Vector.replicate 10 0⟩ }) ∧
      (∀ i : RouteIdx, vget t.store.routes i = none ∧ vget t.expiry.deadlines i = none) ∧ t.expiry.dueList = [] ∧
      t.profiles = { active := s.profiles.active, staged := s.profiles.staged, users := Vector.replicate 32 0 } ∧
      t.walker = ⟨none, none, none, false, 0, false⟩ ∧ t.exportUnit.freeRows = 2048 ∧ (∀ c : Channel, t.place c = none) ∧
      t.updateQueue = [] ∧ t.clock = s.clock ∧ t.fieldPort = s.fieldPort ∧ t.plannerPort.rx = s.plannerPort.rx

/-- SET CLOCK (R190): backward it is refused in RUNNING; otherwise the clock has the value sent and the divider is cleared; a forward move adds the routes
that are due and the exports that are idle to the due list, and raises the age count in RUNNING by the minutes skipped; an age count that has reached the age
interval becomes 0 and makes one AGE job pending, which an idle Walker starts at once (R133, R140, R141, R161). No notice is given. That the age count is held at 60 at
most is the model's choice (log entry 25). -/
def Obligations.SetClockMovesClock : Prop :=
  ∀ (ch : Channel) (rq : Request) (g : Grant) (v : Minute) (s : State), StoreTurn .setClock ch rq g s → s.walkerAtRest →
    parseMinute rq.body = some v →
    (s.control.condition = .running → v.toNat < s.clock.minute.toNat →
      exec (.setClock ch) s = .next (s.finishStore ch rq .backward (byte4 s.clock.minute.toNat))) ∧
    ((s.control.condition = .config ∨ s.clock.minute = v) → v.toNat ≤ s.clock.minute.toNat →
      exec (.setClock ch) s = .next (State.finishStore ch rq .ok (byte4 v.toNat) { s with clock := ⟨v, 0⟩ })) ∧
    (s.clock.minute.toNat < v.toNat →
      ∃ t, exec (.setClock ch) s = .next t ∧ Answered ch rq .ok (byte4 v.toNat) s t ∧ t.clock = ⟨v, 0⟩ ∧
        s.expiry.dueList <+: t.expiry.dueList ∧
        (∀ i : RouteIdx, DueItem.route i ∈ t.expiry.dueList ↔
          DueItem.route i ∈ s.expiry.dueList ∨ ∃ d, vget s.expiry.deadlines i = some d ∧ d.toNat ≤ v.toNat) ∧
        (∀ c : Channel, DueItem.zoneExport c ∈ t.expiry.dueList ↔
          DueItem.zoneExport c ∈ s.expiry.dueList ∨
            ∃ e, s.place c = some e ∧ e.lastActivity.toNat + s.control.params.idleLimit ≤ v.toNat) ∧
        (s.control.condition = .config → t.walker = s.walker) ∧
        (s.control.condition = .running →
          let count := min 60 (s.walker.ageCount + (v.toNat - s.clock.minute.toNat))
          t.walker =
            if count < s.control.params.ageInterval then { s.walker with ageCount := count }
            else
              { s.walker with
                ageCount := 0
                pendingAge := s.walker.running.isSome
                running := match s.walker.running with
                  | some j => some j
                  | none => if s.store.slots.isEmpty then none else some ⟨.age, none⟩ }) ∧
        Offered [] s t ∧
        t.store = s.store ∧ t.profiles = s.profiles ∧ t.exportUnit = s.exportUnit ∧ t.control = s.control ∧
        t.updateQueue = s.updateQueue ∧ t.fieldPort = s.fieldPort)

/-! ### Walks -/

/-- An AGE visit (R142 to R144): a NEW record without report, or a LIVE record, that has been silent for its profile's silence limit becomes SILENT and is
evaluated, with SILENT to its zone's watchers and then the notices of the evaluation (R109; their value is that of log entry 10); any other record is left, with no
notice. The walk position becomes the slot visited. A visit of any kind whose record has a damaged key group halts the device, and one that finds the reading group
damaged poisons the record and takes no other action (R143, R192, R193). -/
def Obligations.AgeVisitFindsSilentBins : Prop :=
  (∀ (j : Job) (slot : Nat) (g : Grant) (r : BinRecord) (s : State), VisitTurn j slot g s → j.kind = .age → s.store.sound →
    sfind slot s.store.slots = some r →
    let limit := (vget s.profiles.active r.key.profile).silence
    let silent := (r.key.state = .new ∧ r.reading.reportTime = none ∧ r.key.registered.toNat + limit ≤ g.clock.toNat) ∨
      (r.key.state = .live ∧ ∃ u, r.reading.reportTime = some u ∧ u.toNat + limit ≤ g.clock.toNat)
    let quiet : BinRecord := { r with key := { r.key with state := .silent } }
    let noneWaits := s.walker.pendingRecal = none ∧ s.walker.pendingRescan = none ∧ s.walker.pendingAge = false
    ∃ t, exec .ageVisit s = .next t ∧
      (silent →
        sfind slot t.store.slots = some (evaluated (s.zone r.key.zone) quiet) ∧
        (t.zone r.key.zone).counters.silent = (s.zone r.key.zone).counters.silent + 1 ∧
        ((slotAhead t.store.slots ⟨.age, some slot⟩).isSome = true ∨ noneWaits →
          Offered (toEach (s.zone r.key.zone).watching (about .silent quiet g.clock)
            ++ evaluationNotices false (s.zone r.key.zone) s.store.routes g.clock quiet) s t)) ∧
      (¬ silent → t.store.slots = s.store.slots ∧
        ((slotAhead t.store.slots ⟨.age, some slot⟩).isSome = true ∨ noneWaits → Offered [] s t)) ∧
      ((slotAhead t.store.slots ⟨.age, some slot⟩).isSome = true → t.walker = { s.walker with running := some ⟨.age, some slot⟩ }) ∧
      (slotAhead t.store.slots ⟨.age, some slot⟩ = none → s.walker.pendingRecal = none → s.walker.pendingRescan = none →
        s.walker.pendingAge = false → t.walker = { s.walker with running := none }) ∧
      OtherRecordsKept slot s t ∧ IndexKept s t ∧ t.store.routes = s.store.routes ∧ t.expiry = s.expiry ∧
      t.profiles.users = s.profiles.users ∧ t.updateQueue = s.updateQueue ∧ ZoneSettingsKept s t ∧ LinksAndSettingsKept s t) ∧
  ∀ (j : Job) (slot : Nat) (g : Grant) (r : BinRecord) (s : State), VisitTurn j slot g s → s.control.condition ≠ .halted →
    sfind slot s.store.slots = some r →
    (r.keyHealth = .double → ∃ t, exec (visitCommand j) s = .next t ∧ HaltsWith g (readGroups true slot (workOf s g)) s t) ∧
    (r.keyHealth ≠ .double → r.readingHealth = .double → ∃ t, exec (visitCommand j) s = .next t ∧
      sfind slot t.store.slots = some (poisonedFrom r) ∧ OtherRecordsKept slot s t ∧
      ((slotAhead t.store.slots { j with position := some slot }).isSome = true →
        t.walker = { s.walker with running := some { j with position := some slot } } ∧
        Offered (poisonNotices true (s.zone r.key.zone) s.store.routes g.clock r) s t))

/-- RESCAN and RECAL visits (R85, R86, R142, R143, R145): a record that is not POISONED is evaluated, in a RECAL visit after its recomputation with its
active profile; the walk position becomes the slot visited, and a job with no slot ahead completes. The notices are, in a RECAL visit, BATTERY_LOW, then those of the
evaluation, and then, when the job completes, RECAL_DONE to channel 0 or, for each zone of the job in ascending order, RESCAN_DONE to channel 0 and the zone's watchers
(R86, R109, R146; the value of those about a bin is that of log entry 10). -/
def Obligations.RescanAndRecalVisits : Prop :=
  ∀ (j : Job) (slot : Nat) (g : Grant) (r : BinRecord) (s : State), VisitTurn j slot g s → s.store.sound →
    sfind slot s.store.slots = some r →
    let p := vget s.profiles.active r.key.profile
    let z := s.zone r.key.zone
    let there := { j with position := some slot }
    let recomputed : BinRecord := { r with reading := { r.reading with
      fill := match r.reading.lastRaw with
        | some raw => r.reading.fill.map (fun f => ⟨computeFill p raw, f.time⟩)
        | none => r.reading.fill
      pending := none
      batteryLow := match r.reading.battery with | some b => decide (b ≤ p.lowBattery) | none => false } }
    let moved := fun (t : State) =>
      ((slotAhead t.store.slots there).isSome = true → t.walker = { s.walker with running := some there }) ∧
      (slotAhead t.store.slots there = none → s.walker.pendingRecal = none → s.walker.pendingRescan = none →
        s.walker.pendingAge = false → t.walker = { s.walker with running := none }) ∧
      OtherRecordsKept slot s t ∧ IndexKept s t ∧ t.store.routes = s.store.routes ∧ t.expiry = s.expiry ∧
      t.profiles.users = s.profiles.users ∧ t.updateQueue = s.updateQueue ∧ ZoneSettingsKept s t ∧ LinksAndSettingsKept s t
    let offered := fun (visit done : List (Channel × Notice)) (t : State) =>
      ((slotAhead t.store.slots there).isSome = true → Offered visit s t) ∧
      (slotAhead t.store.slots there = none → s.walker.pendingRecal = none → s.walker.pendingRescan = none →
        s.walker.pendingAge = false → Offered (visit ++ done) s t)
    (∀ zs, j.kind = .rescan zs → ∃ t, exec .rescanVisit s = .next t ∧
      sfind slot t.store.slots = some (if r.key.state = .poisoned then r else evaluated z r) ∧
      (slotAhead t.store.slots there = none → s.walker.pendingRescan = none →
        ∀ z : ZoneNo, vget zs z = true → (t.zone z).rescan = false) ∧
      offered (if r.key.state = .poisoned then [] else evaluationNotices false z s.store.routes g.clock r) (rescanNotices zs g.clock s) t ∧
      moved t) ∧
    ∀ ps, j.kind = .recal ps → ∃ t, exec .recalVisit s = .next t ∧
      sfind slot t.store.slots = some (if r.key.state = .poisoned then r else evaluated z recomputed) ∧
      offered (if r.key.state = .poisoned then [] else
        batteryNotices z g.clock r recomputed ++ evaluationNotices false z s.store.routes g.clock recomputed) (recalNotices g.clock) t ∧
      moved t

/-! ### The minute advance and the due list -/

/-- A minute advance (R189): the divider returns to 0 and, unless the clock stands at its greatest value, the clock rises by one and is handed to the Expiry
Unit while the device is not HALTED, and the age count rises in RUNNING. The comparisons after it (R133, R140, R161): due routes in ascending index, then
idle exports in ascending channel, join the end of the due list unless it names them; an age count that has reached the age interval becomes 0 and makes
an AGE job pending, which an idle Walker starts. That the comparisons are made by the commands that follow is the model's choice (log entry 4), and that
the age count is held at 60 at most is too (log entry 25). -/
def Obligations.MinuteAdvanceAndComparisons : Prop :=
  (∀ s : State, s.settled = true →
    exec .minuteAdvance s = .next (State.look
      (if s.clock.minute = 0xFFFFFFFF#32 then { s with clock := { s.clock with divider := 0 } }
       else
        let m := s.clock.minute + 1#32
        { s with
          clock := { minute := m, divider := 0 }
          expiry := if s.control.condition = .halted then s.expiry
            else { s.expiry with handedRoutes := some m, handedExports := some m }
          walker := if s.control.condition = .running then
            { s.walker with ageCount := min 60 (s.walker.ageCount + 1), ageHanded := true } else s.walker }))) ∧
  (∀ (v : Minute) (s : State), s.expiry.handedRoutes = some v →
    exec .routeDeadlineDue s = .next (State.look
      { s with expiry := { s.expiry with
          dueList := s.expiry.dueList ++ ((List.finRange 64).filter (fun i =>
            (match vget s.expiry.deadlines i with | some d => decide (d.toNat ≤ v.toNat) | none => false) &&
              !s.expiry.dueList.contains (.route i))).map DueItem.route
          handedRoutes := none } })) ∧
  (∀ (v : Minute) (s : State), s.expiry.handedRoutes = none → s.expiry.handedExports = some v →
    exec .exportIdleDue s = .next (State.look
      { s with expiry := { s.expiry with
          dueList := s.expiry.dueList ++ ((List.finRange 8).filter (fun c =>
            (match s.place c with
              | some e => decide (e.lastActivity.toNat + s.control.params.idleLimit ≤ v.toNat)
              | none => false) && !s.expiry.dueList.contains (.zoneExport c))).map DueItem.zoneExport
          handedExports := none } })) ∧
  ∀ s : State, s.walker.ageHanded = true → s.walkerAtRest → s.control.condition = .running →
    exec .ageIntervalPassed s = .next (State.look
      (if s.walker.ageCount < s.control.params.ageInterval then { s with walker := { s.walker with ageHanded := false } }
       else
        { s with walker := { s.walker with
            ageHanded := false
            ageCount := 0
            pendingAge := s.walker.running.isSome
            running := match s.walker.running with
              | some j => some j
              | none => if s.store.slots.isEmpty then none else some ⟨.age, none⟩ } }))

/-- A route item at its grant (R130, R134): a route still HELD and due ends, and the records of its PENDING members are unclaimed and evaluated; otherwise
the item is dropped with no other change. A member whose record's reading group is damaged beyond correction is LOST, its record poisoned (R123, R192). The notices are
those of the evaluations, in member order, then those of the poisonings met, in member order, and then ROUTE_ENDED with status EXPIRED to the owner (R130; the value of
those about a bin is that of log entry 10). A damaged key group halts the device: the members taken before stay in their new state and the route stays HELD (R193). -/
def Obligations.RouteExpiryEndsDueRoute : Prop :=
  ∀ (i : RouteIdx) (g : Grant) (s : State), DueTurn (.route i) g s →
    ((∀ rt, vget s.store.routes i = some rt → g.clock.toNat < rt.deadline.toNat) → s.walkerAtRest →
      exec .routeExpiry s = .next
        (State.idled { s with expiry := { s.expiry with dueList := s.expiry.dueList.tail } }).look) ∧
    ∀ rt, vget s.store.routes i = some rt → rt.deadline.toNat ≤ g.clock.toNat → (s.store.sound ∨ s.control.condition ≠ .halted) →
      membersHeld i rt s →
      let taken := rt.members.filter (fun m => m.state == .pending)
      (s.store.keysReadable (taken.map Member.slot) → ∃ t, exec .routeExpiry s = .next t ∧
        vget t.store.routes i = none ∧ vget t.expiry.deadlines i = none ∧
        (s.walkerAtRest → Offered (s.releaseNotices taken g.clock
          ++ endNotices i rt (membersTaken s.store taken rt.members) .expired g.clock) s t) ∧
        OtherRoutesKept i s t ∧ MembersFreed taken s t ∧ t.expiry.dueList = s.expiry.dueList.tail ∧
        IndexKept s t ∧ t.profiles.users = s.profiles.users ∧ t.updateQueue = s.updateQueue ∧
        t.plannerPort = s.plannerPort ∧ ZoneSettingsKept s t ∧ LinksAndSettingsKept s t) ∧
      ∀ (before later : List Member) (m : Member) (r : BinRecord), taken = before ++ m :: later →
        s.store.keysReadable (before.map Member.slot) → sfind m.slot s.store.slots = some r → r.keyHealth = .double →
        ∃ t, exec .routeExpiry s = .next t ∧ ReleaseHalted i rt before m.slot g s t ∧ t.updateQueue = s.updateQueue ∧
          t.plannerPort = s.plannerPort
end

