-- ==== Sys2Proof/Laws/State.lean ====
section
/-! SUPPORT. One lemma for each field of State and each update of it: what the field reads after the update. -/

namespace Sys2Proof.Machine

/-! ### Updates that write fields outright -/

@[simp] theorem State.bump_pending (s : State) (c : Counter) : (s.bump c).pending = s.pending := rfl
@[simp] theorem State.bump_freeCount (s : State) (c : Counter) : (s.bump c).freeCount = s.freeCount := rfl
@[simp] theorem State.bump_fieldPort (s : State) (c : Counter) : (s.bump c).fieldPort = s.fieldPort := rfl
@[simp] theorem State.bump_updateQueue (s : State) (c : Counter) : (s.bump c).updateQueue = s.updateQueue := rfl
@[simp] theorem State.bump_plannerPort (s : State) (c : Counter) : (s.bump c).plannerPort = s.plannerPort := rfl
@[simp] theorem State.bump_channels (s : State) (c : Counter) : (s.bump c).channels = s.channels := rfl
@[simp] theorem State.bump_arbiter (s : State) (c : Counter) : (s.bump c).arbiter = s.arbiter := rfl
@[simp] theorem State.bump_store (s : State) (c : Counter) : (s.bump c).store = s.store := rfl
@[simp] theorem State.bump_profiles (s : State) (c : Counter) : (s.bump c).profiles = s.profiles := rfl
@[simp] theorem State.bump_walker (s : State) (c : Counter) : (s.bump c).walker = s.walker := rfl
@[simp] theorem State.bump_expiry (s : State) (c : Counter) : (s.bump c).expiry = s.expiry := rfl
@[simp] theorem State.bump_exportUnit (s : State) (c : Counter) : (s.bump c).exportUnit = s.exportUnit := rfl
@[simp] theorem State.bump_clock (s : State) (c : Counter) : (s.bump c).clock = s.clock := rfl
@[simp] theorem State.bump_control (s : State) (c : Counter) : (s.bump c).control = { s.control with counters := bumpIn c s.control.counters } := rfl

@[simp] theorem State.modChan_pending (s : State) (ch : Channel) (f : ChannelState → ChannelState) : (s.modChan ch f).pending = s.pending := rfl
@[simp] theorem State.modChan_freeCount (s : State) (ch : Channel) (f : ChannelState → ChannelState) : (s.modChan ch f).freeCount = s.freeCount := rfl
@[simp] theorem State.modChan_fieldPort (s : State) (ch : Channel) (f : ChannelState → ChannelState) : (s.modChan ch f).fieldPort = s.fieldPort := rfl
@[simp] theorem State.modChan_updateQueue (s : State) (ch : Channel) (f : ChannelState → ChannelState) : (s.modChan ch f).updateQueue = s.updateQueue := rfl
@[simp] theorem State.modChan_plannerPort (s : State) (ch : Channel) (f : ChannelState → ChannelState) : (s.modChan ch f).plannerPort = s.plannerPort := rfl
@[simp] theorem State.modChan_channels (s : State) (ch : Channel) (f : ChannelState → ChannelState) : (s.modChan ch f).channels = vmod s.channels ch f := rfl
@[simp] theorem State.modChan_arbiter (s : State) (ch : Channel) (f : ChannelState → ChannelState) : (s.modChan ch f).arbiter = s.arbiter := rfl
@[simp] theorem State.modChan_store (s : State) (ch : Channel) (f : ChannelState → ChannelState) : (s.modChan ch f).store = s.store := rfl
@[simp] theorem State.modChan_profiles (s : State) (ch : Channel) (f : ChannelState → ChannelState) : (s.modChan ch f).profiles = s.profiles := rfl
@[simp] theorem State.modChan_walker (s : State) (ch : Channel) (f : ChannelState → ChannelState) : (s.modChan ch f).walker = s.walker := rfl
@[simp] theorem State.modChan_expiry (s : State) (ch : Channel) (f : ChannelState → ChannelState) : (s.modChan ch f).expiry = s.expiry := rfl
@[simp] theorem State.modChan_exportUnit (s : State) (ch : Channel) (f : ChannelState → ChannelState) : (s.modChan ch f).exportUnit = s.exportUnit := rfl
@[simp] theorem State.modChan_clock (s : State) (ch : Channel) (f : ChannelState → ChannelState) : (s.modChan ch f).clock = s.clock := rfl
@[simp] theorem State.modChan_control (s : State) (ch : Channel) (f : ChannelState → ChannelState) : (s.modChan ch f).control = s.control := rfl

@[simp] theorem State.respond_pending (s : State) (r : Response) : (s.respond r).pending = s.pending := rfl
@[simp] theorem State.respond_freeCount (s : State) (r : Response) : (s.respond r).freeCount = s.freeCount := rfl
@[simp] theorem State.respond_fieldPort (s : State) (r : Response) : (s.respond r).fieldPort = s.fieldPort := rfl
@[simp] theorem State.respond_updateQueue (s : State) (r : Response) : (s.respond r).updateQueue = s.updateQueue := rfl
@[simp] theorem State.respond_plannerPort (s : State) (r : Response) : (s.respond r).plannerPort = { s.plannerPort with responses := s.plannerPort.responses ++ [r] } := rfl
@[simp] theorem State.respond_channels (s : State) (r : Response) : (s.respond r).channels = s.channels := rfl
@[simp] theorem State.respond_arbiter (s : State) (r : Response) : (s.respond r).arbiter = s.arbiter := rfl
@[simp] theorem State.respond_store (s : State) (r : Response) : (s.respond r).store = s.store := rfl
@[simp] theorem State.respond_profiles (s : State) (r : Response) : (s.respond r).profiles = s.profiles := rfl
@[simp] theorem State.respond_walker (s : State) (r : Response) : (s.respond r).walker = s.walker := rfl
@[simp] theorem State.respond_expiry (s : State) (r : Response) : (s.respond r).expiry = s.expiry := rfl
@[simp] theorem State.respond_exportUnit (s : State) (r : Response) : (s.respond r).exportUnit = s.exportUnit := rfl
@[simp] theorem State.respond_clock (s : State) (r : Response) : (s.respond r).clock = s.clock := rfl
@[simp] theorem State.respond_control (s : State) (r : Response) : (s.respond r).control = s.control := rfl

@[simp] theorem State.answer_pending (s : State) (ch : Channel) (rq : Request) (code : RespCode) (body : List Byte) : (s.answer ch rq code body).pending = s.pending := rfl
@[simp] theorem State.answer_freeCount (s : State) (ch : Channel) (rq : Request) (code : RespCode) (body : List Byte) : (s.answer ch rq code body).freeCount = s.freeCount := rfl
@[simp] theorem State.answer_fieldPort (s : State) (ch : Channel) (rq : Request) (code : RespCode) (body : List Byte) : (s.answer ch rq code body).fieldPort = s.fieldPort := rfl
@[simp] theorem State.answer_updateQueue (s : State) (ch : Channel) (rq : Request) (code : RespCode) (body : List Byte) : (s.answer ch rq code body).updateQueue = s.updateQueue := rfl
@[simp] theorem State.answer_plannerPort (s : State) (ch : Channel) (rq : Request) (code : RespCode) (body : List Byte) : (s.answer ch rq code body).plannerPort = { s.plannerPort with responses := s.plannerPort.responses ++ [responseTo ch rq code body] } := rfl
@[simp] theorem State.answer_channels (s : State) (ch : Channel) (rq : Request) (code : RespCode) (body : List Byte) : (s.answer ch rq code body).channels = vmod s.channels ch (fun c => { c with queue := c.queue.tail }) := rfl
@[simp] theorem State.answer_arbiter (s : State) (ch : Channel) (rq : Request) (code : RespCode) (body : List Byte) : (s.answer ch rq code body).arbiter = s.arbiter := rfl
@[simp] theorem State.answer_store (s : State) (ch : Channel) (rq : Request) (code : RespCode) (body : List Byte) : (s.answer ch rq code body).store = s.store := rfl
@[simp] theorem State.answer_profiles (s : State) (ch : Channel) (rq : Request) (code : RespCode) (body : List Byte) : (s.answer ch rq code body).profiles = s.profiles := rfl
@[simp] theorem State.answer_walker (s : State) (ch : Channel) (rq : Request) (code : RespCode) (body : List Byte) : (s.answer ch rq code body).walker = s.walker := rfl
@[simp] theorem State.answer_expiry (s : State) (ch : Channel) (rq : Request) (code : RespCode) (body : List Byte) : (s.answer ch rq code body).expiry = s.expiry := rfl
@[simp] theorem State.answer_exportUnit (s : State) (ch : Channel) (rq : Request) (code : RespCode) (body : List Byte) : (s.answer ch rq code body).exportUnit = s.exportUnit := rfl
@[simp] theorem State.answer_clock (s : State) (ch : Channel) (rq : Request) (code : RespCode) (body : List Byte) : (s.answer ch rq code body).clock = s.clock := rfl
@[simp] theorem State.answer_control (s : State) (ch : Channel) (rq : Request) (code : RespCode) (body : List Byte) : (s.answer ch rq code body).control = s.control := rfl

@[simp] theorem State.commit_pending (s : State) (w : Work) : (s.commit w).pending = s.pending := rfl
@[simp] theorem State.commit_freeCount (s : State) (w : Work) : (s.commit w).freeCount = s.freeCount := rfl
@[simp] theorem State.commit_fieldPort (s : State) (w : Work) : (s.commit w).fieldPort = s.fieldPort := rfl
@[simp] theorem State.commit_updateQueue (s : State) (w : Work) : (s.commit w).updateQueue = s.updateQueue := rfl
@[simp] theorem State.commit_plannerPort (s : State) (w : Work) : (s.commit w).plannerPort = s.plannerPort := rfl
@[simp] theorem State.commit_channels (s : State) (w : Work) : (s.commit w).channels = s.channels := rfl
@[simp] theorem State.commit_arbiter (s : State) (w : Work) : (s.commit w).arbiter = s.arbiter := rfl
@[simp] theorem State.commit_store (s : State) (w : Work) : (s.commit w).store = w.store := rfl
@[simp] theorem State.commit_profiles (s : State) (w : Work) : (s.commit w).profiles = { s.profiles with users := w.users } := rfl
@[simp] theorem State.commit_walker (s : State) (w : Work) : (s.commit w).walker = s.walker := rfl
@[simp] theorem State.commit_expiry (s : State) (w : Work) : (s.commit w).expiry = { s.expiry with deadlines := w.deadlines } := rfl
@[simp] theorem State.commit_exportUnit (s : State) (w : Work) : (s.commit w).exportUnit = s.exportUnit := rfl
@[simp] theorem State.commit_clock (s : State) (w : Work) : (s.commit w).clock = s.clock := rfl
@[simp] theorem State.commit_control (s : State) (w : Work) : (s.commit w).control = { s.control with condition := w.condition, counters := w.counters } := rfl

@[simp] theorem State.enterHalted_pending (s : State) : (s.enterHalted).pending = s.pending := rfl
@[simp] theorem State.enterHalted_freeCount (s : State) : (s.enterHalted).freeCount = s.freeCount := rfl
@[simp] theorem State.enterHalted_fieldPort (s : State) : (s.enterHalted).fieldPort = s.fieldPort := rfl
@[simp] theorem State.enterHalted_updateQueue (s : State) : (s.enterHalted).updateQueue = s.updateQueue := rfl
@[simp] theorem State.enterHalted_plannerPort (s : State) : (s.enterHalted).plannerPort = s.plannerPort := rfl
@[simp] theorem State.enterHalted_channels (s : State) : (s.enterHalted).channels = s.channels := rfl
@[simp] theorem State.enterHalted_arbiter (s : State) : (s.enterHalted).arbiter = s.arbiter := rfl
@[simp] theorem State.enterHalted_store (s : State) : (s.enterHalted).store = s.store := rfl
@[simp] theorem State.enterHalted_profiles (s : State) : (s.enterHalted).profiles = s.profiles := rfl
@[simp] theorem State.enterHalted_walker (s : State) : (s.enterHalted).walker = { s.walker with running := none, pendingRecal := none, pendingRescan := none, pendingAge := false, ageHanded := false } := rfl
@[simp] theorem State.enterHalted_expiry (s : State) : (s.enterHalted).expiry = { s.expiry with dueList := [], handedRoutes := none, handedExports := none } := rfl
@[simp] theorem State.enterHalted_exportUnit (s : State) : (s.enterHalted).exportUnit = s.exportUnit := rfl
@[simp] theorem State.enterHalted_clock (s : State) : (s.enterHalted).clock = s.clock := rfl
@[simp] theorem State.enterHalted_control (s : State) : (s.enterHalted).control = { s.control with condition := .halted, haltLine := true } := rfl

@[simp] theorem State.raiseAgeJob_pending (s : State) : (s.raiseAgeJob).pending = s.pending := rfl
@[simp] theorem State.raiseAgeJob_freeCount (s : State) : (s.raiseAgeJob).freeCount = s.freeCount := rfl
@[simp] theorem State.raiseAgeJob_fieldPort (s : State) : (s.raiseAgeJob).fieldPort = s.fieldPort := rfl
@[simp] theorem State.raiseAgeJob_updateQueue (s : State) : (s.raiseAgeJob).updateQueue = s.updateQueue := rfl
@[simp] theorem State.raiseAgeJob_plannerPort (s : State) : (s.raiseAgeJob).plannerPort = s.plannerPort := rfl
@[simp] theorem State.raiseAgeJob_channels (s : State) : (s.raiseAgeJob).channels = s.channels := rfl
@[simp] theorem State.raiseAgeJob_arbiter (s : State) : (s.raiseAgeJob).arbiter = s.arbiter := rfl
@[simp] theorem State.raiseAgeJob_store (s : State) : (s.raiseAgeJob).store = s.store := rfl
@[simp] theorem State.raiseAgeJob_profiles (s : State) : (s.raiseAgeJob).profiles = s.profiles := rfl
@[simp] theorem State.raiseAgeJob_walker (s : State) : (s.raiseAgeJob).walker = { s.walker with ageCount := 0, pendingAge := true } := rfl
@[simp] theorem State.raiseAgeJob_expiry (s : State) : (s.raiseAgeJob).expiry = s.expiry := rfl
@[simp] theorem State.raiseAgeJob_exportUnit (s : State) : (s.raiseAgeJob).exportUnit = s.exportUnit := rfl
@[simp] theorem State.raiseAgeJob_clock (s : State) : (s.raiseAgeJob).clock = s.clock := rfl
@[simp] theorem State.raiseAgeJob_control (s : State) : (s.raiseAgeJob).control = s.control := rfl

@[simp] theorem State.stageProfile_pending (s : State) (no : ProfileNo) (p : Profile) : (s.stageProfile no p).pending = s.pending := rfl
@[simp] theorem State.stageProfile_freeCount (s : State) (no : ProfileNo) (p : Profile) : (s.stageProfile no p).freeCount = s.freeCount := rfl
@[simp] theorem State.stageProfile_fieldPort (s : State) (no : ProfileNo) (p : Profile) : (s.stageProfile no p).fieldPort = s.fieldPort := rfl
@[simp] theorem State.stageProfile_updateQueue (s : State) (no : ProfileNo) (p : Profile) : (s.stageProfile no p).updateQueue = s.updateQueue := rfl
@[simp] theorem State.stageProfile_plannerPort (s : State) (no : ProfileNo) (p : Profile) : (s.stageProfile no p).plannerPort = s.plannerPort := rfl
@[simp] theorem State.stageProfile_channels (s : State) (no : ProfileNo) (p : Profile) : (s.stageProfile no p).channels = s.channels := rfl
@[simp] theorem State.stageProfile_arbiter (s : State) (no : ProfileNo) (p : Profile) : (s.stageProfile no p).arbiter = s.arbiter := rfl
@[simp] theorem State.stageProfile_store (s : State) (no : ProfileNo) (p : Profile) : (s.stageProfile no p).store = s.store := rfl
@[simp] theorem State.stageProfile_profiles (s : State) (no : ProfileNo) (p : Profile) : (s.stageProfile no p).profiles = { s.profiles with staged := vset s.profiles.staged no p } := rfl
@[simp] theorem State.stageProfile_walker (s : State) (no : ProfileNo) (p : Profile) : (s.stageProfile no p).walker = s.walker := rfl
@[simp] theorem State.stageProfile_expiry (s : State) (no : ProfileNo) (p : Profile) : (s.stageProfile no p).expiry = s.expiry := rfl
@[simp] theorem State.stageProfile_exportUnit (s : State) (no : ProfileNo) (p : Profile) : (s.stageProfile no p).exportUnit = s.exportUnit := rfl
@[simp] theorem State.stageProfile_clock (s : State) (no : ProfileNo) (p : Profile) : (s.stageProfile no p).clock = s.clock := rfl
@[simp] theorem State.stageProfile_control (s : State) (no : ProfileNo) (p : Profile) : (s.stageProfile no p).control = s.control := rfl

@[simp] theorem State.modZone_pending (s : State) (z : ZoneNo) (f : Zone → Zone) : (s.modZone z f).pending = s.pending := rfl
@[simp] theorem State.modZone_freeCount (s : State) (z : ZoneNo) (f : Zone → Zone) : (s.modZone z f).freeCount = s.freeCount := rfl
@[simp] theorem State.modZone_fieldPort (s : State) (z : ZoneNo) (f : Zone → Zone) : (s.modZone z f).fieldPort = s.fieldPort := rfl
@[simp] theorem State.modZone_updateQueue (s : State) (z : ZoneNo) (f : Zone → Zone) : (s.modZone z f).updateQueue = s.updateQueue := rfl
@[simp] theorem State.modZone_plannerPort (s : State) (z : ZoneNo) (f : Zone → Zone) : (s.modZone z f).plannerPort = s.plannerPort := rfl
@[simp] theorem State.modZone_channels (s : State) (z : ZoneNo) (f : Zone → Zone) : (s.modZone z f).channels = s.channels := rfl
@[simp] theorem State.modZone_arbiter (s : State) (z : ZoneNo) (f : Zone → Zone) : (s.modZone z f).arbiter = s.arbiter := rfl
@[simp] theorem State.modZone_store (s : State) (z : ZoneNo) (f : Zone → Zone) : (s.modZone z f).store = { s.store with zones := vmod s.store.zones z f } := rfl
@[simp] theorem State.modZone_profiles (s : State) (z : ZoneNo) (f : Zone → Zone) : (s.modZone z f).profiles = s.profiles := rfl
@[simp] theorem State.modZone_walker (s : State) (z : ZoneNo) (f : Zone → Zone) : (s.modZone z f).walker = s.walker := rfl
@[simp] theorem State.modZone_expiry (s : State) (z : ZoneNo) (f : Zone → Zone) : (s.modZone z f).expiry = s.expiry := rfl
@[simp] theorem State.modZone_exportUnit (s : State) (z : ZoneNo) (f : Zone → Zone) : (s.modZone z f).exportUnit = s.exportUnit := rfl
@[simp] theorem State.modZone_clock (s : State) (z : ZoneNo) (f : Zone → Zone) : (s.modZone z f).clock = s.clock := rfl
@[simp] theorem State.modZone_control (s : State) (z : ZoneNo) (f : Zone → Zone) : (s.modZone z f).control = s.control := rfl

@[simp] theorem State.applyZone_pending (s : State) (z : ZoneNo) : (s.applyZone z).pending = s.pending := rfl
@[simp] theorem State.applyZone_freeCount (s : State) (z : ZoneNo) : (s.applyZone z).freeCount = s.freeCount := rfl
@[simp] theorem State.applyZone_fieldPort (s : State) (z : ZoneNo) : (s.applyZone z).fieldPort = s.fieldPort := rfl
@[simp] theorem State.applyZone_updateQueue (s : State) (z : ZoneNo) : (s.applyZone z).updateQueue = s.updateQueue := rfl
@[simp] theorem State.applyZone_plannerPort (s : State) (z : ZoneNo) : (s.applyZone z).plannerPort = s.plannerPort := rfl
@[simp] theorem State.applyZone_channels (s : State) (z : ZoneNo) : (s.applyZone z).channels = s.channels := rfl
@[simp] theorem State.applyZone_arbiter (s : State) (z : ZoneNo) : (s.applyZone z).arbiter = s.arbiter := rfl
@[simp] theorem State.applyZone_store (s : State) (z : ZoneNo) : (s.applyZone z).store = { s.store with zones := vmod s.store.zones z (fun zn => { zn with active := zn.staged, rescan := true }) } := rfl
@[simp] theorem State.applyZone_profiles (s : State) (z : ZoneNo) : (s.applyZone z).profiles = s.profiles := rfl
@[simp] theorem State.applyZone_walker (s : State) (z : ZoneNo) : (s.applyZone z).walker = s.walker.addRescan z := rfl
@[simp] theorem State.applyZone_expiry (s : State) (z : ZoneNo) : (s.applyZone z).expiry = s.expiry := rfl
@[simp] theorem State.applyZone_exportUnit (s : State) (z : ZoneNo) : (s.applyZone z).exportUnit = s.exportUnit := rfl
@[simp] theorem State.applyZone_clock (s : State) (z : ZoneNo) : (s.applyZone z).clock = s.clock := rfl
@[simp] theorem State.applyZone_control (s : State) (z : ZoneNo) : (s.applyZone z).control = s.control := rfl

@[simp] theorem State.setPlace_pending (s : State) (ch : Channel) (p : Option OpenExport) (free : Nat) : (s.setPlace ch p free).pending = s.pending := rfl
@[simp] theorem State.setPlace_freeCount (s : State) (ch : Channel) (p : Option OpenExport) (free : Nat) : (s.setPlace ch p free).freeCount = s.freeCount := rfl
@[simp] theorem State.setPlace_fieldPort (s : State) (ch : Channel) (p : Option OpenExport) (free : Nat) : (s.setPlace ch p free).fieldPort = s.fieldPort := rfl
@[simp] theorem State.setPlace_updateQueue (s : State) (ch : Channel) (p : Option OpenExport) (free : Nat) : (s.setPlace ch p free).updateQueue = s.updateQueue := rfl
@[simp] theorem State.setPlace_plannerPort (s : State) (ch : Channel) (p : Option OpenExport) (free : Nat) : (s.setPlace ch p free).plannerPort = s.plannerPort := rfl
@[simp] theorem State.setPlace_channels (s : State) (ch : Channel) (p : Option OpenExport) (free : Nat) : (s.setPlace ch p free).channels = s.channels := rfl
@[simp] theorem State.setPlace_arbiter (s : State) (ch : Channel) (p : Option OpenExport) (free : Nat) : (s.setPlace ch p free).arbiter = s.arbiter := rfl
@[simp] theorem State.setPlace_store (s : State) (ch : Channel) (p : Option OpenExport) (free : Nat) : (s.setPlace ch p free).store = s.store := rfl
@[simp] theorem State.setPlace_profiles (s : State) (ch : Channel) (p : Option OpenExport) (free : Nat) : (s.setPlace ch p free).profiles = s.profiles := rfl
@[simp] theorem State.setPlace_walker (s : State) (ch : Channel) (p : Option OpenExport) (free : Nat) : (s.setPlace ch p free).walker = s.walker := rfl
@[simp] theorem State.setPlace_expiry (s : State) (ch : Channel) (p : Option OpenExport) (free : Nat) : (s.setPlace ch p free).expiry = s.expiry := rfl
@[simp] theorem State.setPlace_exportUnit (s : State) (ch : Channel) (p : Option OpenExport) (free : Nat) : (s.setPlace ch p free).exportUnit = { freeRows := free, places := vset s.exportUnit.places ch p } := rfl
@[simp] theorem State.setPlace_clock (s : State) (ch : Channel) (p : Option OpenExport) (free : Nat) : (s.setPlace ch p free).clock = s.clock := rfl
@[simp] theorem State.setPlace_control (s : State) (ch : Channel) (p : Option OpenExport) (free : Nat) : (s.setPlace ch p free).control = s.control := rfl

@[simp] theorem State.closeExport_pending (s : State) (ch : Channel) : (s.closeExport ch).pending = s.pending := rfl
@[simp] theorem State.closeExport_freeCount (s : State) (ch : Channel) : (s.closeExport ch).freeCount = s.freeCount := rfl
@[simp] theorem State.closeExport_fieldPort (s : State) (ch : Channel) : (s.closeExport ch).fieldPort = s.fieldPort := rfl
@[simp] theorem State.closeExport_updateQueue (s : State) (ch : Channel) : (s.closeExport ch).updateQueue = s.updateQueue := rfl
@[simp] theorem State.closeExport_plannerPort (s : State) (ch : Channel) : (s.closeExport ch).plannerPort = s.plannerPort := rfl
@[simp] theorem State.closeExport_channels (s : State) (ch : Channel) : (s.closeExport ch).channels = s.channels := rfl
@[simp] theorem State.closeExport_arbiter (s : State) (ch : Channel) : (s.closeExport ch).arbiter = s.arbiter := rfl
@[simp] theorem State.closeExport_store (s : State) (ch : Channel) : (s.closeExport ch).store = s.store := rfl
@[simp] theorem State.closeExport_profiles (s : State) (ch : Channel) : (s.closeExport ch).profiles = s.profiles := rfl
@[simp] theorem State.closeExport_walker (s : State) (ch : Channel) : (s.closeExport ch).walker = s.walker := rfl
@[simp] theorem State.closeExport_expiry (s : State) (ch : Channel) : (s.closeExport ch).expiry = s.expiry := rfl
@[simp] theorem State.closeExport_exportUnit (s : State) (ch : Channel) : (s.closeExport ch).exportUnit = { freeRows := s.exportUnit.freeRows + (rowsOf (s.place ch)).length, places := vset s.exportUnit.places ch none } := rfl
@[simp] theorem State.closeExport_clock (s : State) (ch : Channel) : (s.closeExport ch).clock = s.clock := rfl
@[simp] theorem State.closeExport_control (s : State) (ch : Channel) : (s.closeExport ch).control = s.control := rfl

@[simp] theorem State.unwatchAll_pending (s : State) (ch : Channel) : (s.unwatchAll ch).pending = s.pending := rfl
@[simp] theorem State.unwatchAll_freeCount (s : State) (ch : Channel) : (s.unwatchAll ch).freeCount = s.freeCount := rfl
@[simp] theorem State.unwatchAll_fieldPort (s : State) (ch : Channel) : (s.unwatchAll ch).fieldPort = s.fieldPort := rfl
@[simp] theorem State.unwatchAll_updateQueue (s : State) (ch : Channel) : (s.unwatchAll ch).updateQueue = s.updateQueue := rfl
@[simp] theorem State.unwatchAll_plannerPort (s : State) (ch : Channel) : (s.unwatchAll ch).plannerPort = s.plannerPort := rfl
@[simp] theorem State.unwatchAll_channels (s : State) (ch : Channel) : (s.unwatchAll ch).channels = s.channels := rfl
@[simp] theorem State.unwatchAll_arbiter (s : State) (ch : Channel) : (s.unwatchAll ch).arbiter = s.arbiter := rfl
@[simp] theorem State.unwatchAll_store (s : State) (ch : Channel) : (s.unwatchAll ch).store = { s.store with zones := vmap (setWatcher ch false) s.store.zones } := rfl
@[simp] theorem State.unwatchAll_profiles (s : State) (ch : Channel) : (s.unwatchAll ch).profiles = s.profiles := rfl
@[simp] theorem State.unwatchAll_walker (s : State) (ch : Channel) : (s.unwatchAll ch).walker = s.walker := rfl
@[simp] theorem State.unwatchAll_expiry (s : State) (ch : Channel) : (s.unwatchAll ch).expiry = s.expiry := rfl
@[simp] theorem State.unwatchAll_exportUnit (s : State) (ch : Channel) : (s.unwatchAll ch).exportUnit = s.exportUnit := rfl
@[simp] theorem State.unwatchAll_clock (s : State) (ch : Channel) : (s.unwatchAll ch).clock = s.clock := rfl
@[simp] theorem State.unwatchAll_control (s : State) (ch : Channel) : (s.unwatchAll ch).control = s.control := rfl

@[simp] theorem State.started_pending (s : State) : (s.started).pending = s.pending := rfl
@[simp] theorem State.started_freeCount (s : State) : (s.started).freeCount = s.freeCount := rfl
@[simp] theorem State.started_fieldPort (s : State) : (s.started).fieldPort = s.fieldPort := rfl
@[simp] theorem State.started_updateQueue (s : State) : (s.started).updateQueue = s.updateQueue := rfl
@[simp] theorem State.started_plannerPort (s : State) : (s.started).plannerPort = s.plannerPort := rfl
@[simp] theorem State.started_channels (s : State) : (s.started).channels = s.channels := rfl
@[simp] theorem State.started_arbiter (s : State) : (s.started).arbiter = s.arbiter := rfl
@[simp] theorem State.started_store (s : State) : (s.started).store = s.store := rfl
@[simp] theorem State.started_profiles (s : State) : (s.started).profiles = s.profiles := rfl
@[simp] theorem State.started_walker (s : State) : (s.started).walker = s.walker := rfl
@[simp] theorem State.started_expiry (s : State) : (s.started).expiry = s.expiry := rfl
@[simp] theorem State.started_exportUnit (s : State) : (s.started).exportUnit = s.exportUnit := rfl
@[simp] theorem State.started_clock (s : State) : (s.started).clock = s.clock := rfl
@[simp] theorem State.started_control (s : State) : (s.started).control = { s.control with condition := .running } := rfl

@[simp] theorem State.setParams_pending (s : State) (p : Params) : (s.setParams p).pending = s.pending := rfl
@[simp] theorem State.setParams_freeCount (s : State) (p : Params) : (s.setParams p).freeCount = s.freeCount := rfl
@[simp] theorem State.setParams_fieldPort (s : State) (p : Params) : (s.setParams p).fieldPort = s.fieldPort := rfl
@[simp] theorem State.setParams_updateQueue (s : State) (p : Params) : (s.setParams p).updateQueue = s.updateQueue := rfl
@[simp] theorem State.setParams_plannerPort (s : State) (p : Params) : (s.setParams p).plannerPort = s.plannerPort := rfl
@[simp] theorem State.setParams_channels (s : State) (p : Params) : (s.setParams p).channels = s.channels := rfl
@[simp] theorem State.setParams_arbiter (s : State) (p : Params) : (s.setParams p).arbiter = s.arbiter := rfl
@[simp] theorem State.setParams_store (s : State) (p : Params) : (s.setParams p).store = s.store := rfl
@[simp] theorem State.setParams_profiles (s : State) (p : Params) : (s.setParams p).profiles = s.profiles := rfl
@[simp] theorem State.setParams_walker (s : State) (p : Params) : (s.setParams p).walker = s.walker := rfl
@[simp] theorem State.setParams_expiry (s : State) (p : Params) : (s.setParams p).expiry = s.expiry := rfl
@[simp] theorem State.setParams_exportUnit (s : State) (p : Params) : (s.setParams p).exportUnit = s.exportUnit := rfl
@[simp] theorem State.setParams_clock (s : State) (p : Params) : (s.setParams p).clock = s.clock := rfl
@[simp] theorem State.setParams_control (s : State) (p : Params) : (s.setParams p).control = { s.control with params := p } := rfl

@[simp] theorem State.replySent_pending (s : State) : (s.replySent).pending = s.pending := rfl
@[simp] theorem State.replySent_freeCount (s : State) : (s.replySent).freeCount = s.freeCount := rfl
@[simp] theorem State.replySent_fieldPort (s : State) : (s.replySent).fieldPort = { s.fieldPort with replies := s.fieldPort.replies.tail } := rfl
@[simp] theorem State.replySent_updateQueue (s : State) : (s.replySent).updateQueue = s.updateQueue := rfl
@[simp] theorem State.replySent_plannerPort (s : State) : (s.replySent).plannerPort = s.plannerPort := rfl
@[simp] theorem State.replySent_channels (s : State) : (s.replySent).channels = s.channels := rfl
@[simp] theorem State.replySent_arbiter (s : State) : (s.replySent).arbiter = s.arbiter := rfl
@[simp] theorem State.replySent_store (s : State) : (s.replySent).store = s.store := rfl
@[simp] theorem State.replySent_profiles (s : State) : (s.replySent).profiles = s.profiles := rfl
@[simp] theorem State.replySent_walker (s : State) : (s.replySent).walker = s.walker := rfl
@[simp] theorem State.replySent_expiry (s : State) : (s.replySent).expiry = s.expiry := rfl
@[simp] theorem State.replySent_exportUnit (s : State) : (s.replySent).exportUnit = s.exportUnit := rfl
@[simp] theorem State.replySent_clock (s : State) : (s.replySent).clock = s.clock := rfl
@[simp] theorem State.replySent_control (s : State) : (s.replySent).control = s.control := rfl

@[simp] theorem State.responseOut_pending (s : State) : (s.responseOut).pending = s.pending := rfl
@[simp] theorem State.responseOut_freeCount (s : State) : (s.responseOut).freeCount = s.freeCount := rfl
@[simp] theorem State.responseOut_fieldPort (s : State) : (s.responseOut).fieldPort = s.fieldPort := rfl
@[simp] theorem State.responseOut_updateQueue (s : State) : (s.responseOut).updateQueue = s.updateQueue := rfl
@[simp] theorem State.responseOut_plannerPort (s : State) : (s.responseOut).plannerPort = { s.plannerPort with responses := s.plannerPort.responses.tail } := rfl
@[simp] theorem State.responseOut_channels (s : State) : (s.responseOut).channels = s.channels := rfl
@[simp] theorem State.responseOut_arbiter (s : State) : (s.responseOut).arbiter = s.arbiter := rfl
@[simp] theorem State.responseOut_store (s : State) : (s.responseOut).store = s.store := rfl
@[simp] theorem State.responseOut_profiles (s : State) : (s.responseOut).profiles = s.profiles := rfl
@[simp] theorem State.responseOut_walker (s : State) : (s.responseOut).walker = s.walker := rfl
@[simp] theorem State.responseOut_expiry (s : State) : (s.responseOut).expiry = s.expiry := rfl
@[simp] theorem State.responseOut_exportUnit (s : State) : (s.responseOut).exportUnit = s.exportUnit := rfl
@[simp] theorem State.responseOut_clock (s : State) : (s.responseOut).clock = s.clock := rfl
@[simp] theorem State.responseOut_control (s : State) : (s.responseOut).control = s.control := rfl

@[simp] theorem State.setDueList_pending (s : State) (l : List DueItem) : (s.setDueList l).pending = s.pending := rfl
@[simp] theorem State.setDueList_freeCount (s : State) (l : List DueItem) : (s.setDueList l).freeCount = s.freeCount := rfl
@[simp] theorem State.setDueList_fieldPort (s : State) (l : List DueItem) : (s.setDueList l).fieldPort = s.fieldPort := rfl
@[simp] theorem State.setDueList_updateQueue (s : State) (l : List DueItem) : (s.setDueList l).updateQueue = s.updateQueue := rfl
@[simp] theorem State.setDueList_plannerPort (s : State) (l : List DueItem) : (s.setDueList l).plannerPort = s.plannerPort := rfl
@[simp] theorem State.setDueList_channels (s : State) (l : List DueItem) : (s.setDueList l).channels = s.channels := rfl
@[simp] theorem State.setDueList_arbiter (s : State) (l : List DueItem) : (s.setDueList l).arbiter = s.arbiter := rfl
@[simp] theorem State.setDueList_store (s : State) (l : List DueItem) : (s.setDueList l).store = s.store := rfl
@[simp] theorem State.setDueList_profiles (s : State) (l : List DueItem) : (s.setDueList l).profiles = s.profiles := rfl
@[simp] theorem State.setDueList_walker (s : State) (l : List DueItem) : (s.setDueList l).walker = s.walker := rfl
@[simp] theorem State.setDueList_expiry (s : State) (l : List DueItem) : (s.setDueList l).expiry = { s.expiry with dueList := l } := rfl
@[simp] theorem State.setDueList_exportUnit (s : State) (l : List DueItem) : (s.setDueList l).exportUnit = s.exportUnit := rfl
@[simp] theorem State.setDueList_clock (s : State) (l : List DueItem) : (s.setDueList l).clock = s.clock := rfl
@[simp] theorem State.setDueList_control (s : State) (l : List DueItem) : (s.setDueList l).control = s.control := rfl

@[simp] theorem State.setRx_field_pending (s : State) (r : Receiver) : (s.setRx .field r).pending = s.pending := rfl
@[simp] theorem State.setRx_field_freeCount (s : State) (r : Receiver) : (s.setRx .field r).freeCount = s.freeCount := rfl
@[simp] theorem State.setRx_field_fieldPort (s : State) (r : Receiver) : (s.setRx .field r).fieldPort = { s.fieldPort with rx := r } := rfl
@[simp] theorem State.setRx_field_updateQueue (s : State) (r : Receiver) : (s.setRx .field r).updateQueue = s.updateQueue := rfl
@[simp] theorem State.setRx_field_plannerPort (s : State) (r : Receiver) : (s.setRx .field r).plannerPort = s.plannerPort := rfl
@[simp] theorem State.setRx_field_channels (s : State) (r : Receiver) : (s.setRx .field r).channels = s.channels := rfl
@[simp] theorem State.setRx_field_arbiter (s : State) (r : Receiver) : (s.setRx .field r).arbiter = s.arbiter := rfl
@[simp] theorem State.setRx_field_store (s : State) (r : Receiver) : (s.setRx .field r).store = s.store := rfl
@[simp] theorem State.setRx_field_profiles (s : State) (r : Receiver) : (s.setRx .field r).profiles = s.profiles := rfl
@[simp] theorem State.setRx_field_walker (s : State) (r : Receiver) : (s.setRx .field r).walker = s.walker := rfl
@[simp] theorem State.setRx_field_expiry (s : State) (r : Receiver) : (s.setRx .field r).expiry = s.expiry := rfl
@[simp] theorem State.setRx_field_exportUnit (s : State) (r : Receiver) : (s.setRx .field r).exportUnit = s.exportUnit := rfl
@[simp] theorem State.setRx_field_clock (s : State) (r : Receiver) : (s.setRx .field r).clock = s.clock := rfl
@[simp] theorem State.setRx_field_control (s : State) (r : Receiver) : (s.setRx .field r).control = s.control := rfl

@[simp] theorem State.setRx_planner_pending (s : State) (r : Receiver) : (s.setRx .planner r).pending = s.pending := rfl
@[simp] theorem State.setRx_planner_freeCount (s : State) (r : Receiver) : (s.setRx .planner r).freeCount = s.freeCount := rfl
@[simp] theorem State.setRx_planner_fieldPort (s : State) (r : Receiver) : (s.setRx .planner r).fieldPort = s.fieldPort := rfl
@[simp] theorem State.setRx_planner_updateQueue (s : State) (r : Receiver) : (s.setRx .planner r).updateQueue = s.updateQueue := rfl
@[simp] theorem State.setRx_planner_plannerPort (s : State) (r : Receiver) : (s.setRx .planner r).plannerPort = { s.plannerPort with rx := r } := rfl
@[simp] theorem State.setRx_planner_channels (s : State) (r : Receiver) : (s.setRx .planner r).channels = s.channels := rfl
@[simp] theorem State.setRx_planner_arbiter (s : State) (r : Receiver) : (s.setRx .planner r).arbiter = s.arbiter := rfl
@[simp] theorem State.setRx_planner_store (s : State) (r : Receiver) : (s.setRx .planner r).store = s.store := rfl
@[simp] theorem State.setRx_planner_profiles (s : State) (r : Receiver) : (s.setRx .planner r).profiles = s.profiles := rfl
@[simp] theorem State.setRx_planner_walker (s : State) (r : Receiver) : (s.setRx .planner r).walker = s.walker := rfl
@[simp] theorem State.setRx_planner_expiry (s : State) (r : Receiver) : (s.setRx .planner r).expiry = s.expiry := rfl
@[simp] theorem State.setRx_planner_exportUnit (s : State) (r : Receiver) : (s.setRx .planner r).exportUnit = s.exportUnit := rfl
@[simp] theorem State.setRx_planner_clock (s : State) (r : Receiver) : (s.setRx .planner r).clock = s.clock := rfl
@[simp] theorem State.setRx_planner_control (s : State) (r : Receiver) : (s.setRx .planner r).control = s.control := rfl

@[simp] theorem State.tableCleared_pending (s : State) : (s.tableCleared).pending = s.pending := rfl
@[simp] theorem State.tableCleared_freeCount (s : State) : (s.tableCleared).freeCount = s.freeCount := rfl
@[simp] theorem State.tableCleared_fieldPort (s : State) : (s.tableCleared).fieldPort = s.fieldPort := rfl
@[simp] theorem State.tableCleared_updateQueue (s : State) : (s.tableCleared).updateQueue = [] := rfl
@[simp] theorem State.tableCleared_plannerPort (s : State) : (s.tableCleared).plannerPort = s.plannerPort := rfl
@[simp] theorem State.tableCleared_channels (s : State) : (s.tableCleared).channels = vmap emptyNotices s.channels := rfl
@[simp] theorem State.tableCleared_arbiter (s : State) : (s.tableCleared).arbiter = s.arbiter := rfl
@[simp] theorem State.tableCleared_store (s : State) : (s.tableCleared).store = s.store.cleared := rfl
@[simp] theorem State.tableCleared_profiles (s : State) : (s.tableCleared).profiles = { s.profiles with users := Vector.replicate 32 0 } := rfl
@[simp] theorem State.tableCleared_walker (s : State) : (s.tableCleared).walker = Walker.reset := rfl
@[simp] theorem State.tableCleared_expiry (s : State) : (s.tableCleared).expiry = Expiry.reset := rfl
@[simp] theorem State.tableCleared_exportUnit (s : State) : (s.tableCleared).exportUnit = { freeRows := Config.poolRows, places := Vector.replicate 8 none } := rfl
@[simp] theorem State.tableCleared_clock (s : State) : (s.tableCleared).clock = s.clock := rfl
@[simp] theorem State.tableCleared_control (s : State) : (s.tableCleared).control = { s.control with condition := .config, haltLine := false } := rfl

/-! ### Updates under a condition: the fields they never write -/

@[simp] theorem State.reply_pending (s : State) (n : Byte) (st : FrameStatus) : (s.reply n st).pending = s.pending := by
  unfold State.reply; split <;> rfl
@[simp] theorem State.reply_freeCount (s : State) (n : Byte) (st : FrameStatus) : (s.reply n st).freeCount = s.freeCount := by
  unfold State.reply; split <;> rfl
@[simp] theorem State.reply_updateQueue (s : State) (n : Byte) (st : FrameStatus) : (s.reply n st).updateQueue = s.updateQueue := by
  unfold State.reply; split <;> rfl
@[simp] theorem State.reply_plannerPort (s : State) (n : Byte) (st : FrameStatus) : (s.reply n st).plannerPort = s.plannerPort := by
  unfold State.reply; split <;> rfl
@[simp] theorem State.reply_channels (s : State) (n : Byte) (st : FrameStatus) : (s.reply n st).channels = s.channels := by
  unfold State.reply; split <;> rfl
@[simp] theorem State.reply_arbiter (s : State) (n : Byte) (st : FrameStatus) : (s.reply n st).arbiter = s.arbiter := by
  unfold State.reply; split <;> rfl
@[simp] theorem State.reply_store (s : State) (n : Byte) (st : FrameStatus) : (s.reply n st).store = s.store := by
  unfold State.reply; split <;> rfl
@[simp] theorem State.reply_profiles (s : State) (n : Byte) (st : FrameStatus) : (s.reply n st).profiles = s.profiles := by
  unfold State.reply; split <;> rfl
@[simp] theorem State.reply_walker (s : State) (n : Byte) (st : FrameStatus) : (s.reply n st).walker = s.walker := by
  unfold State.reply; split <;> rfl
@[simp] theorem State.reply_expiry (s : State) (n : Byte) (st : FrameStatus) : (s.reply n st).expiry = s.expiry := by
  unfold State.reply; split <;> rfl
@[simp] theorem State.reply_exportUnit (s : State) (n : Byte) (st : FrameStatus) : (s.reply n st).exportUnit = s.exportUnit := by
  unfold State.reply; split <;> rfl
@[simp] theorem State.reply_clock (s : State) (n : Byte) (st : FrameStatus) : (s.reply n st).clock = s.clock := by
  unfold State.reply; split <;> rfl

@[simp] theorem State.offer_pending (s : State) (ch : Channel) (n : Notice) : (s.offer ch n).pending = s.pending := by
  unfold State.offer; dsimp only; split <;> rfl
@[simp] theorem State.offer_freeCount (s : State) (ch : Channel) (n : Notice) : (s.offer ch n).freeCount = s.freeCount := by
  unfold State.offer; dsimp only; split <;> rfl
@[simp] theorem State.offer_fieldPort (s : State) (ch : Channel) (n : Notice) : (s.offer ch n).fieldPort = s.fieldPort := by
  unfold State.offer; dsimp only; split <;> rfl
@[simp] theorem State.offer_updateQueue (s : State) (ch : Channel) (n : Notice) : (s.offer ch n).updateQueue = s.updateQueue := by
  unfold State.offer; dsimp only; split <;> rfl
@[simp] theorem State.offer_plannerPort (s : State) (ch : Channel) (n : Notice) : (s.offer ch n).plannerPort = s.plannerPort := by
  unfold State.offer; dsimp only; split <;> rfl
@[simp] theorem State.offer_arbiter (s : State) (ch : Channel) (n : Notice) : (s.offer ch n).arbiter = s.arbiter := by
  unfold State.offer; dsimp only; split <;> rfl
@[simp] theorem State.offer_store (s : State) (ch : Channel) (n : Notice) : (s.offer ch n).store = s.store := by
  unfold State.offer; dsimp only; split <;> rfl
@[simp] theorem State.offer_profiles (s : State) (ch : Channel) (n : Notice) : (s.offer ch n).profiles = s.profiles := by
  unfold State.offer; dsimp only; split <;> rfl
@[simp] theorem State.offer_walker (s : State) (ch : Channel) (n : Notice) : (s.offer ch n).walker = s.walker := by
  unfold State.offer; dsimp only; split <;> rfl
@[simp] theorem State.offer_expiry (s : State) (ch : Channel) (n : Notice) : (s.offer ch n).expiry = s.expiry := by
  unfold State.offer; dsimp only; split <;> rfl
@[simp] theorem State.offer_exportUnit (s : State) (ch : Channel) (n : Notice) : (s.offer ch n).exportUnit = s.exportUnit := by
  unfold State.offer; dsimp only; split <;> rfl
@[simp] theorem State.offer_clock (s : State) (ch : Channel) (n : Notice) : (s.offer ch n).clock = s.clock := by
  unfold State.offer; dsimp only; split <;> rfl

@[simp] theorem State.handClock_pending (s : State) (v : Minute) : (s.handClock v).pending = s.pending := by
  unfold State.handClock; split <;> rfl
@[simp] theorem State.handClock_freeCount (s : State) (v : Minute) : (s.handClock v).freeCount = s.freeCount := by
  unfold State.handClock; split <;> rfl
@[simp] theorem State.handClock_fieldPort (s : State) (v : Minute) : (s.handClock v).fieldPort = s.fieldPort := by
  unfold State.handClock; split <;> rfl
@[simp] theorem State.handClock_updateQueue (s : State) (v : Minute) : (s.handClock v).updateQueue = s.updateQueue := by
  unfold State.handClock; split <;> rfl
@[simp] theorem State.handClock_plannerPort (s : State) (v : Minute) : (s.handClock v).plannerPort = s.plannerPort := by
  unfold State.handClock; split <;> rfl
@[simp] theorem State.handClock_channels (s : State) (v : Minute) : (s.handClock v).channels = s.channels := by
  unfold State.handClock; split <;> rfl
@[simp] theorem State.handClock_arbiter (s : State) (v : Minute) : (s.handClock v).arbiter = s.arbiter := by
  unfold State.handClock; split <;> rfl
@[simp] theorem State.handClock_store (s : State) (v : Minute) : (s.handClock v).store = s.store := by
  unfold State.handClock; split <;> rfl
@[simp] theorem State.handClock_profiles (s : State) (v : Minute) : (s.handClock v).profiles = s.profiles := by
  unfold State.handClock; split <;> rfl
@[simp] theorem State.handClock_walker (s : State) (v : Minute) : (s.handClock v).walker = s.walker := by
  unfold State.handClock; split <;> rfl
@[simp] theorem State.handClock_exportUnit (s : State) (v : Minute) : (s.handClock v).exportUnit = s.exportUnit := by
  unfold State.handClock; split <;> rfl
@[simp] theorem State.handClock_clock (s : State) (v : Minute) : (s.handClock v).clock = s.clock := by
  unfold State.handClock; split <;> rfl
@[simp] theorem State.handClock_control (s : State) (v : Minute) : (s.handClock v).control = s.control := by
  unfold State.handClock; split <;> rfl

@[simp] theorem State.raiseAge_pending (s : State) (n : Nat) : (s.raiseAge n).pending = s.pending := by
  unfold State.raiseAge; split <;> rfl
@[simp] theorem State.raiseAge_freeCount (s : State) (n : Nat) : (s.raiseAge n).freeCount = s.freeCount := by
  unfold State.raiseAge; split <;> rfl
@[simp] theorem State.raiseAge_fieldPort (s : State) (n : Nat) : (s.raiseAge n).fieldPort = s.fieldPort := by
  unfold State.raiseAge; split <;> rfl
@[simp] theorem State.raiseAge_updateQueue (s : State) (n : Nat) : (s.raiseAge n).updateQueue = s.updateQueue := by
  unfold State.raiseAge; split <;> rfl
@[simp] theorem State.raiseAge_plannerPort (s : State) (n : Nat) : (s.raiseAge n).plannerPort = s.plannerPort := by
  unfold State.raiseAge; split <;> rfl
@[simp] theorem State.raiseAge_channels (s : State) (n : Nat) : (s.raiseAge n).channels = s.channels := by
  unfold State.raiseAge; split <;> rfl
@[simp] theorem State.raiseAge_arbiter (s : State) (n : Nat) : (s.raiseAge n).arbiter = s.arbiter := by
  unfold State.raiseAge; split <;> rfl
@[simp] theorem State.raiseAge_store (s : State) (n : Nat) : (s.raiseAge n).store = s.store := by
  unfold State.raiseAge; split <;> rfl
@[simp] theorem State.raiseAge_profiles (s : State) (n : Nat) : (s.raiseAge n).profiles = s.profiles := by
  unfold State.raiseAge; split <;> rfl
@[simp] theorem State.raiseAge_expiry (s : State) (n : Nat) : (s.raiseAge n).expiry = s.expiry := by
  unfold State.raiseAge; split <;> rfl
@[simp] theorem State.raiseAge_exportUnit (s : State) (n : Nat) : (s.raiseAge n).exportUnit = s.exportUnit := by
  unfold State.raiseAge; split <;> rfl
@[simp] theorem State.raiseAge_clock (s : State) (n : Nat) : (s.raiseAge n).clock = s.clock := by
  unfold State.raiseAge; split <;> rfl
@[simp] theorem State.raiseAge_control (s : State) (n : Nat) : (s.raiseAge n).control = s.control := by
  unfold State.raiseAge; split <;> rfl

@[simp] theorem State.compareRoutes_pending (s : State) : (s.compareRoutes).pending = s.pending := by
  unfold State.compareRoutes; split <;> rfl
@[simp] theorem State.compareRoutes_freeCount (s : State) : (s.compareRoutes).freeCount = s.freeCount := by
  unfold State.compareRoutes; split <;> rfl
@[simp] theorem State.compareRoutes_fieldPort (s : State) : (s.compareRoutes).fieldPort = s.fieldPort := by
  unfold State.compareRoutes; split <;> rfl
@[simp] theorem State.compareRoutes_updateQueue (s : State) : (s.compareRoutes).updateQueue = s.updateQueue := by
  unfold State.compareRoutes; split <;> rfl
@[simp] theorem State.compareRoutes_plannerPort (s : State) : (s.compareRoutes).plannerPort = s.plannerPort := by
  unfold State.compareRoutes; split <;> rfl
@[simp] theorem State.compareRoutes_channels (s : State) : (s.compareRoutes).channels = s.channels := by
  unfold State.compareRoutes; split <;> rfl
@[simp] theorem State.compareRoutes_arbiter (s : State) : (s.compareRoutes).arbiter = s.arbiter := by
  unfold State.compareRoutes; split <;> rfl
@[simp] theorem State.compareRoutes_store (s : State) : (s.compareRoutes).store = s.store := by
  unfold State.compareRoutes; split <;> rfl
@[simp] theorem State.compareRoutes_profiles (s : State) : (s.compareRoutes).profiles = s.profiles := by
  unfold State.compareRoutes; split <;> rfl
@[simp] theorem State.compareRoutes_walker (s : State) : (s.compareRoutes).walker = s.walker := by
  unfold State.compareRoutes; split <;> rfl
@[simp] theorem State.compareRoutes_exportUnit (s : State) : (s.compareRoutes).exportUnit = s.exportUnit := by
  unfold State.compareRoutes; split <;> rfl
@[simp] theorem State.compareRoutes_clock (s : State) : (s.compareRoutes).clock = s.clock := by
  unfold State.compareRoutes; split <;> rfl
@[simp] theorem State.compareRoutes_control (s : State) : (s.compareRoutes).control = s.control := by
  unfold State.compareRoutes; split <;> rfl

@[simp] theorem State.compareExports_pending (s : State) : (s.compareExports).pending = s.pending := by
  unfold State.compareExports; split <;> rfl
@[simp] theorem State.compareExports_freeCount (s : State) : (s.compareExports).freeCount = s.freeCount := by
  unfold State.compareExports; split <;> rfl
@[simp] theorem State.compareExports_fieldPort (s : State) : (s.compareExports).fieldPort = s.fieldPort := by
  unfold State.compareExports; split <;> rfl
@[simp] theorem State.compareExports_updateQueue (s : State) : (s.compareExports).updateQueue = s.updateQueue := by
  unfold State.compareExports; split <;> rfl
@[simp] theorem State.compareExports_plannerPort (s : State) : (s.compareExports).plannerPort = s.plannerPort := by
  unfold State.compareExports; split <;> rfl
@[simp] theorem State.compareExports_channels (s : State) : (s.compareExports).channels = s.channels := by
  unfold State.compareExports; split <;> rfl
@[simp] theorem State.compareExports_arbiter (s : State) : (s.compareExports).arbiter = s.arbiter := by
  unfold State.compareExports; split <;> rfl
@[simp] theorem State.compareExports_store (s : State) : (s.compareExports).store = s.store := by
  unfold State.compareExports; split <;> rfl
@[simp] theorem State.compareExports_profiles (s : State) : (s.compareExports).profiles = s.profiles := by
  unfold State.compareExports; split <;> rfl
@[simp] theorem State.compareExports_walker (s : State) : (s.compareExports).walker = s.walker := by
  unfold State.compareExports; split <;> rfl
@[simp] theorem State.compareExports_exportUnit (s : State) : (s.compareExports).exportUnit = s.exportUnit := by
  unfold State.compareExports; split <;> rfl
@[simp] theorem State.compareExports_clock (s : State) : (s.compareExports).clock = s.clock := by
  unfold State.compareExports; split <;> rfl
@[simp] theorem State.compareExports_control (s : State) : (s.compareExports).control = s.control := by
  unfold State.compareExports; split <;> rfl

@[simp] theorem State.look_pending (s : State) : (s.look).pending = s.pending := by
  unfold State.look; repeat' split
  all_goals rfl
@[simp] theorem State.look_freeCount (s : State) : (s.look).freeCount = s.freeCount := by
  unfold State.look; repeat' split
  all_goals rfl
@[simp] theorem State.look_fieldPort (s : State) : (s.look).fieldPort = s.fieldPort := by
  unfold State.look; repeat' split
  all_goals rfl
@[simp] theorem State.look_updateQueue (s : State) : (s.look).updateQueue = s.updateQueue := by
  unfold State.look; repeat' split
  all_goals rfl
@[simp] theorem State.look_plannerPort (s : State) : (s.look).plannerPort = s.plannerPort := by
  unfold State.look; repeat' split
  all_goals rfl
@[simp] theorem State.look_channels (s : State) : (s.look).channels = s.channels := by
  unfold State.look; repeat' split
  all_goals rfl
@[simp] theorem State.look_store (s : State) : (s.look).store = s.store := by
  unfold State.look; repeat' split
  all_goals rfl
@[simp] theorem State.look_profiles (s : State) : (s.look).profiles = s.profiles := by
  unfold State.look; repeat' split
  all_goals rfl
@[simp] theorem State.look_walker (s : State) : (s.look).walker = s.walker := by
  unfold State.look; repeat' split
  all_goals rfl
@[simp] theorem State.look_expiry (s : State) : (s.look).expiry = s.expiry := by
  unfold State.look; repeat' split
  all_goals rfl
@[simp] theorem State.look_exportUnit (s : State) : (s.look).exportUnit = s.exportUnit := by
  unfold State.look; repeat' split
  all_goals rfl
@[simp] theorem State.look_clock (s : State) : (s.look).clock = s.clock := by
  unfold State.look; repeat' split
  all_goals rfl
@[simp] theorem State.look_control (s : State) : (s.look).control = s.control := by
  unfold State.look; repeat' split
  all_goals rfl

@[simp] theorem State.applyProfiles_pending (s : State) : (s.applyProfiles).pending = s.pending := rfl
@[simp] theorem State.applyProfiles_freeCount (s : State) : (s.applyProfiles).freeCount = s.freeCount := rfl
@[simp] theorem State.applyProfiles_fieldPort (s : State) : (s.applyProfiles).fieldPort = s.fieldPort := rfl
@[simp] theorem State.applyProfiles_updateQueue (s : State) : (s.applyProfiles).updateQueue = s.updateQueue := rfl
@[simp] theorem State.applyProfiles_plannerPort (s : State) : (s.applyProfiles).plannerPort = s.plannerPort := rfl
@[simp] theorem State.applyProfiles_channels (s : State) : (s.applyProfiles).channels = s.channels := rfl
@[simp] theorem State.applyProfiles_arbiter (s : State) : (s.applyProfiles).arbiter = s.arbiter := rfl
@[simp] theorem State.applyProfiles_store (s : State) : (s.applyProfiles).store = s.store := rfl
@[simp] theorem State.applyProfiles_expiry (s : State) : (s.applyProfiles).expiry = s.expiry := rfl
@[simp] theorem State.applyProfiles_exportUnit (s : State) : (s.applyProfiles).exportUnit = s.exportUnit := rfl
@[simp] theorem State.applyProfiles_clock (s : State) : (s.applyProfiles).clock = s.clock := rfl
@[simp] theorem State.applyProfiles_control (s : State) : (s.applyProfiles).control = s.control := rfl

@[simp] theorem State.minuteAdvance_pending (s : State) : (s.minuteAdvance).pending = s.pending := by
  unfold State.minuteAdvance; split <;> simp
@[simp] theorem State.minuteAdvance_freeCount (s : State) : (s.minuteAdvance).freeCount = s.freeCount := by
  unfold State.minuteAdvance; split <;> simp
@[simp] theorem State.minuteAdvance_fieldPort (s : State) : (s.minuteAdvance).fieldPort = s.fieldPort := by
  unfold State.minuteAdvance; split <;> simp
@[simp] theorem State.minuteAdvance_updateQueue (s : State) : (s.minuteAdvance).updateQueue = s.updateQueue := by
  unfold State.minuteAdvance; split <;> simp
@[simp] theorem State.minuteAdvance_plannerPort (s : State) : (s.minuteAdvance).plannerPort = s.plannerPort := by
  unfold State.minuteAdvance; split <;> simp
@[simp] theorem State.minuteAdvance_channels (s : State) : (s.minuteAdvance).channels = s.channels := by
  unfold State.minuteAdvance; split <;> simp
@[simp] theorem State.minuteAdvance_arbiter (s : State) : (s.minuteAdvance).arbiter = s.arbiter := by
  unfold State.minuteAdvance; split <;> simp
@[simp] theorem State.minuteAdvance_store (s : State) : (s.minuteAdvance).store = s.store := by
  unfold State.minuteAdvance; split <;> simp
@[simp] theorem State.minuteAdvance_profiles (s : State) : (s.minuteAdvance).profiles = s.profiles := by
  unfold State.minuteAdvance; split <;> simp
@[simp] theorem State.minuteAdvance_exportUnit (s : State) : (s.minuteAdvance).exportUnit = s.exportUnit := by
  unfold State.minuteAdvance; split <;> simp
@[simp] theorem State.minuteAdvance_control (s : State) : (s.minuteAdvance).control = s.control := by
  unfold State.minuteAdvance; split <;> simp

@[simp] theorem State.strike_pending (s : State) : (s.strike).pending = s.pending := by
  unfold State.strike; split <;> rfl
@[simp] theorem State.strike_fieldPort (s : State) : (s.strike).fieldPort = s.fieldPort := by
  unfold State.strike; split <;> rfl
@[simp] theorem State.strike_updateQueue (s : State) : (s.strike).updateQueue = s.updateQueue := by
  unfold State.strike; split <;> rfl
@[simp] theorem State.strike_plannerPort (s : State) : (s.strike).plannerPort = s.plannerPort := by
  unfold State.strike; split <;> rfl
@[simp] theorem State.strike_channels (s : State) : (s.strike).channels = s.channels := by
  unfold State.strike; split <;> rfl
@[simp] theorem State.strike_arbiter (s : State) : (s.strike).arbiter = s.arbiter := by
  unfold State.strike; split <;> rfl
@[simp] theorem State.strike_profiles (s : State) : (s.strike).profiles = s.profiles := by
  unfold State.strike; split <;> rfl
@[simp] theorem State.strike_walker (s : State) : (s.strike).walker = s.walker := by
  unfold State.strike; split <;> rfl
@[simp] theorem State.strike_expiry (s : State) : (s.strike).expiry = s.expiry := by
  unfold State.strike; split <;> rfl
@[simp] theorem State.strike_exportUnit (s : State) : (s.strike).exportUnit = s.exportUnit := by
  unfold State.strike; split <;> rfl
@[simp] theorem State.strike_clock (s : State) : (s.strike).clock = s.clock := by
  unfold State.strike; split <;> rfl
@[simp] theorem State.strike_control (s : State) : (s.strike).control = s.control := by
  unfold State.strike; split <;> rfl

@[simp] theorem State.raiseDivider_pending (s : State) : (s.raiseDivider).pending = s.pending := by
  unfold State.raiseDivider; split <;> simp
@[simp] theorem State.raiseDivider_freeCount (s : State) : (s.raiseDivider).freeCount = s.freeCount := by
  unfold State.raiseDivider; split <;> simp
@[simp] theorem State.raiseDivider_fieldPort (s : State) : (s.raiseDivider).fieldPort = s.fieldPort := by
  unfold State.raiseDivider; split <;> simp
@[simp] theorem State.raiseDivider_updateQueue (s : State) : (s.raiseDivider).updateQueue = s.updateQueue := by
  unfold State.raiseDivider; split <;> simp
@[simp] theorem State.raiseDivider_plannerPort (s : State) : (s.raiseDivider).plannerPort = s.plannerPort := by
  unfold State.raiseDivider; split <;> simp
@[simp] theorem State.raiseDivider_channels (s : State) : (s.raiseDivider).channels = s.channels := by
  unfold State.raiseDivider; split <;> simp
@[simp] theorem State.raiseDivider_arbiter (s : State) : (s.raiseDivider).arbiter = s.arbiter := by
  unfold State.raiseDivider; split <;> simp
@[simp] theorem State.raiseDivider_store (s : State) : (s.raiseDivider).store = s.store := by
  unfold State.raiseDivider; split <;> simp
@[simp] theorem State.raiseDivider_profiles (s : State) : (s.raiseDivider).profiles = s.profiles := by
  unfold State.raiseDivider; split <;> simp
@[simp] theorem State.raiseDivider_exportUnit (s : State) : (s.raiseDivider).exportUnit = s.exportUnit := by
  unfold State.raiseDivider; split <;> simp
@[simp] theorem State.raiseDivider_control (s : State) : (s.raiseDivider).control = s.control := by
  unfold State.raiseDivider; split <;> simp

@[simp] theorem State.takeIn_pending (s : State) (ch : Channel) (rq : Request) : (s.takeIn ch rq).pending = s.pending := by
  unfold State.takeIn; split <;> simp
@[simp] theorem State.takeIn_freeCount (s : State) (ch : Channel) (rq : Request) : (s.takeIn ch rq).freeCount = s.freeCount := by
  unfold State.takeIn; split <;> simp
@[simp] theorem State.takeIn_fieldPort (s : State) (ch : Channel) (rq : Request) : (s.takeIn ch rq).fieldPort = s.fieldPort := by
  unfold State.takeIn; split <;> simp
@[simp] theorem State.takeIn_updateQueue (s : State) (ch : Channel) (rq : Request) : (s.takeIn ch rq).updateQueue = s.updateQueue := by
  unfold State.takeIn; split <;> simp
@[simp] theorem State.takeIn_arbiter (s : State) (ch : Channel) (rq : Request) : (s.takeIn ch rq).arbiter = s.arbiter := by
  unfold State.takeIn; split <;> simp
@[simp] theorem State.takeIn_store (s : State) (ch : Channel) (rq : Request) : (s.takeIn ch rq).store = s.store := by
  unfold State.takeIn; split <;> simp
@[simp] theorem State.takeIn_profiles (s : State) (ch : Channel) (rq : Request) : (s.takeIn ch rq).profiles = s.profiles := by
  unfold State.takeIn; split <;> simp
@[simp] theorem State.takeIn_walker (s : State) (ch : Channel) (rq : Request) : (s.takeIn ch rq).walker = s.walker := by
  unfold State.takeIn; split <;> simp
@[simp] theorem State.takeIn_expiry (s : State) (ch : Channel) (rq : Request) : (s.takeIn ch rq).expiry = s.expiry := by
  unfold State.takeIn; split <;> simp
@[simp] theorem State.takeIn_exportUnit (s : State) (ch : Channel) (rq : Request) : (s.takeIn ch rq).exportUnit = s.exportUnit := by
  unfold State.takeIn; split <;> simp
@[simp] theorem State.takeIn_clock (s : State) (ch : Channel) (rq : Request) : (s.takeIn ch rq).clock = s.clock := by
  unfold State.takeIn; split <;> simp

/-! ### Folds: the fields they never write -/

@[simp] theorem State.offerAll_pending (s : State) (l : List (Channel × Notice)) : (s.offerAll l).pending = s.pending := by
  induction l generalizing s with
  | nil => rfl
  | cons p l ih => exact (ih (s.offer p.1 p.2)).trans (State.offer_pending s p.1 p.2)
@[simp] theorem State.offerAll_freeCount (s : State) (l : List (Channel × Notice)) : (s.offerAll l).freeCount = s.freeCount := by
  induction l generalizing s with
  | nil => rfl
  | cons p l ih => exact (ih (s.offer p.1 p.2)).trans (State.offer_freeCount s p.1 p.2)
@[simp] theorem State.offerAll_fieldPort (s : State) (l : List (Channel × Notice)) : (s.offerAll l).fieldPort = s.fieldPort := by
  induction l generalizing s with
  | nil => rfl
  | cons p l ih => exact (ih (s.offer p.1 p.2)).trans (State.offer_fieldPort s p.1 p.2)
@[simp] theorem State.offerAll_updateQueue (s : State) (l : List (Channel × Notice)) : (s.offerAll l).updateQueue = s.updateQueue := by
  induction l generalizing s with
  | nil => rfl
  | cons p l ih => exact (ih (s.offer p.1 p.2)).trans (State.offer_updateQueue s p.1 p.2)
@[simp] theorem State.offerAll_plannerPort (s : State) (l : List (Channel × Notice)) : (s.offerAll l).plannerPort = s.plannerPort := by
  induction l generalizing s with
  | nil => rfl
  | cons p l ih => exact (ih (s.offer p.1 p.2)).trans (State.offer_plannerPort s p.1 p.2)
@[simp] theorem State.offerAll_arbiter (s : State) (l : List (Channel × Notice)) : (s.offerAll l).arbiter = s.arbiter := by
  induction l generalizing s with
  | nil => rfl
  | cons p l ih => exact (ih (s.offer p.1 p.2)).trans (State.offer_arbiter s p.1 p.2)
@[simp] theorem State.offerAll_store (s : State) (l : List (Channel × Notice)) : (s.offerAll l).store = s.store := by
  induction l generalizing s with
  | nil => rfl
  | cons p l ih => exact (ih (s.offer p.1 p.2)).trans (State.offer_store s p.1 p.2)
@[simp] theorem State.offerAll_profiles (s : State) (l : List (Channel × Notice)) : (s.offerAll l).profiles = s.profiles := by
  induction l generalizing s with
  | nil => rfl
  | cons p l ih => exact (ih (s.offer p.1 p.2)).trans (State.offer_profiles s p.1 p.2)
@[simp] theorem State.offerAll_walker (s : State) (l : List (Channel × Notice)) : (s.offerAll l).walker = s.walker := by
  induction l generalizing s with
  | nil => rfl
  | cons p l ih => exact (ih (s.offer p.1 p.2)).trans (State.offer_walker s p.1 p.2)
@[simp] theorem State.offerAll_expiry (s : State) (l : List (Channel × Notice)) : (s.offerAll l).expiry = s.expiry := by
  induction l generalizing s with
  | nil => rfl
  | cons p l ih => exact (ih (s.offer p.1 p.2)).trans (State.offer_expiry s p.1 p.2)
@[simp] theorem State.offerAll_exportUnit (s : State) (l : List (Channel × Notice)) : (s.offerAll l).exportUnit = s.exportUnit := by
  induction l generalizing s with
  | nil => rfl
  | cons p l ih => exact (ih (s.offer p.1 p.2)).trans (State.offer_exportUnit s p.1 p.2)
@[simp] theorem State.offerAll_clock (s : State) (l : List (Channel × Notice)) : (s.offerAll l).clock = s.clock := by
  induction l generalizing s with
  | nil => rfl
  | cons p l ih => exact (ih (s.offer p.1 p.2)).trans (State.offer_clock s p.1 p.2)

@[simp] theorem State.purgeList_pending (s : State) (ch : Channel) (l : List Request) : (s.purgeList ch l).pending = s.pending := by
  induction l generalizing s with
  | nil => rfl
  | cons r l ih => exact ih (s.respond (responseTo ch r .purged []))
@[simp] theorem State.purgeList_freeCount (s : State) (ch : Channel) (l : List Request) : (s.purgeList ch l).freeCount = s.freeCount := by
  induction l generalizing s with
  | nil => rfl
  | cons r l ih => exact ih (s.respond (responseTo ch r .purged []))
@[simp] theorem State.purgeList_fieldPort (s : State) (ch : Channel) (l : List Request) : (s.purgeList ch l).fieldPort = s.fieldPort := by
  induction l generalizing s with
  | nil => rfl
  | cons r l ih => exact ih (s.respond (responseTo ch r .purged []))
@[simp] theorem State.purgeList_updateQueue (s : State) (ch : Channel) (l : List Request) : (s.purgeList ch l).updateQueue = s.updateQueue := by
  induction l generalizing s with
  | nil => rfl
  | cons r l ih => exact ih (s.respond (responseTo ch r .purged []))
@[simp] theorem State.purgeList_channels (s : State) (ch : Channel) (l : List Request) : (s.purgeList ch l).channels = s.channels := by
  induction l generalizing s with
  | nil => rfl
  | cons r l ih => exact ih (s.respond (responseTo ch r .purged []))
@[simp] theorem State.purgeList_arbiter (s : State) (ch : Channel) (l : List Request) : (s.purgeList ch l).arbiter = s.arbiter := by
  induction l generalizing s with
  | nil => rfl
  | cons r l ih => exact ih (s.respond (responseTo ch r .purged []))
@[simp] theorem State.purgeList_store (s : State) (ch : Channel) (l : List Request) : (s.purgeList ch l).store = s.store := by
  induction l generalizing s with
  | nil => rfl
  | cons r l ih => exact ih (s.respond (responseTo ch r .purged []))
@[simp] theorem State.purgeList_profiles (s : State) (ch : Channel) (l : List Request) : (s.purgeList ch l).profiles = s.profiles := by
  induction l generalizing s with
  | nil => rfl
  | cons r l ih => exact ih (s.respond (responseTo ch r .purged []))
@[simp] theorem State.purgeList_walker (s : State) (ch : Channel) (l : List Request) : (s.purgeList ch l).walker = s.walker := by
  induction l generalizing s with
  | nil => rfl
  | cons r l ih => exact ih (s.respond (responseTo ch r .purged []))
@[simp] theorem State.purgeList_expiry (s : State) (ch : Channel) (l : List Request) : (s.purgeList ch l).expiry = s.expiry := by
  induction l generalizing s with
  | nil => rfl
  | cons r l ih => exact ih (s.respond (responseTo ch r .purged []))
@[simp] theorem State.purgeList_exportUnit (s : State) (ch : Channel) (l : List Request) : (s.purgeList ch l).exportUnit = s.exportUnit := by
  induction l generalizing s with
  | nil => rfl
  | cons r l ih => exact ih (s.respond (responseTo ch r .purged []))
@[simp] theorem State.purgeList_clock (s : State) (ch : Channel) (l : List Request) : (s.purgeList ch l).clock = s.clock := by
  induction l generalizing s with
  | nil => rfl
  | cons r l ih => exact ih (s.respond (responseTo ch r .purged []))
@[simp] theorem State.purgeList_control (s : State) (ch : Channel) (l : List Request) : (s.purgeList ch l).control = s.control := by
  induction l generalizing s with
  | nil => rfl
  | cons r l ih => exact ih (s.respond (responseTo ch r .purged []))

end Sys2Proof.Machine
end

