-- ==== Sys2Proof/Laws/Ops.lean ====
section
/-! SUPPORT. What each shared operation does, said once: tables, sparse lists, the steps of a request at its turn, the end of a grant, and reads of
storage free of error. -/

namespace Sys2Proof.Machine

/-! ### Tables of a fixed number of places -/

/-- A place of a table, by its number. -/
theorem vget_eq {α : Type} {n : Nat} (v : Vector α n) (i : Fin n) : vget v i = v[i.val] := rfl

@[simp] theorem vget_vset_self {α : Type} {n : Nat} (v : Vector α n) (i : Fin n) (a : α) : vget (vset v i a) i = a := by
  simp [vget_eq, vset]

theorem vget_vset_ne {α : Type} {n : Nat} (v : Vector α n) {i j : Fin n} (a : α) (h : i ≠ j) : vget (vset v i a) j = vget v j := by
  have h' : i.val ≠ j.val := fun e => h (Fin.ext e)
  simp [vget_eq, vset, h']

theorem vget_vset {α : Type} {n : Nat} (v : Vector α n) (i j : Fin n) (a : α) : vget (vset v i a) j = if i = j then a else vget v j := by
  by_cases h : i = j
  · subst h; simp
  · simp [vget_vset_ne v a h, h]

@[simp] theorem vget_vmod_self {α : Type} {n : Nat} (v : Vector α n) (i : Fin n) (f : α → α) : vget (vmod v i f) i = f (vget v i) := by
  simp [vmod]

theorem vget_vmod_ne {α : Type} {n : Nat} (v : Vector α n) {i j : Fin n} (f : α → α) (h : i ≠ j) : vget (vmod v i f) j = vget v j :=
  vget_vset_ne v _ h

theorem vget_vmod {α : Type} {n : Nat} (v : Vector α n) (i j : Fin n) (f : α → α) :
    vget (vmod v i f) j = if i = j then f (vget v j) else vget v j := by
  by_cases h : i = j
  · subst h; simp
  · simp [vget_vmod_ne v f h, h]

@[simp] theorem vget_vmap {α β : Type} {n : Nat} (f : α → β) (v : Vector α n) (i : Fin n) : vget (vmap f v) i = f (vget v i) := by
  simp [vget_eq, vmap]

@[simp] theorem vget_replicate {α : Type} {n : Nat} (a : α) (i : Fin n) : vget (Vector.replicate n a) i = a := by
  simp [vget, Vector.get]

/-- Tables with the same places are the same. -/
theorem vector_ext {α : Type} {n : Nat} {v w : Vector α n} (h : ∀ i, vget v i = vget w i) : v = w := by
  apply Vector.ext
  intro i hi
  have := h ⟨i, hi⟩
  simpa [vget, Vector.get] using this

@[simp] theorem vset_vget {α : Type} {n : Nat} (v : Vector α n) (i : Fin n) : vset v i (vget v i) = v := by
  apply vector_ext
  intro j
  rw [vget_vset]
  split
  · next h => rw [h]
  · rfl

theorem vmod_congr {α : Type} {n : Nat} (v : Vector α n) (i : Fin n) {f g : α → α} (h : f (vget v i) = g (vget v i)) :
    vmod v i f = vmod v i g := by
  simp [vmod, h]

/-! ### Sparse lists -/

@[simp] theorem sfind_sput_self {α : Type} (k : Nat) (a : α) (l : List (Nat × α)) : sfind k (sput k a l) = some a := by
  induction l with
  | nil => simp [sput, sfind]
  | cons x rest ih =>
    obtain ⟨j, b⟩ := x
    simp only [sput]
    split
    · simp [sfind]
    · split
      · simp [sfind]
      · next h => simp [sfind, h, ih]

theorem sfind_sput_ne {α : Type} {k n : Nat} (a : α) (l : List (Nat × α)) (h : n ≠ k) : sfind n (sput k a l) = sfind n l := by
  induction l with
  | nil => simp [sput, sfind, Ne.symm h]
  | cons x rest ih =>
    obtain ⟨j, b⟩ := x
    simp only [sput]
    split
    · simp [sfind, Ne.symm h]
    · split
      · next hj => subst hj; simp [sfind, Ne.symm h]
      · simp [sfind, ih]

theorem sfind_sdrop_ne {α : Type} {k n : Nat} (l : List (Nat × α)) (h : n ≠ k) : sfind n (sdrop k l) = sfind n l := by
  induction l with
  | nil => rfl
  | cons x rest ih =>
    obtain ⟨j, b⟩ := x
    simp only [sdrop]
    split
    · next hj => subst hj; simp [sfind, Ne.symm h]
    · simp [sfind, ih]

/-- An index below every listed one is not held. -/
theorem sfind_eq_none_of_lt {α : Type} {k : Nat} {l : List (Nat × α)} (h : ∀ p ∈ l, k < p.1) : sfind k l = none := by
  induction l with
  | nil => rfl
  | cons x rest ih =>
    obtain ⟨j, b⟩ := x
    have hj : k < j := h (j, b) (by simp)
    simp [sfind, Nat.ne_of_gt hj, ih (fun p hp => h p (List.mem_cons_of_mem _ hp))]

theorem mem_of_sfind {α : Type} {k : Nat} {a : α} {l : List (Nat × α)} (h : sfind k l = some a) : (k, a) ∈ l := by
  induction l with
  | nil => simp [sfind] at h
  | cons x rest ih =>
    obtain ⟨j, b⟩ := x
    simp only [sfind] at h
    split at h
    · next hj => subst hj; simp_all
    · exact List.mem_cons_of_mem _ (ih h)

theorem mem_sput {α : Type} {k : Nat} {a : α} {l : List (Nat × α)} {p : Nat × α} (h : p ∈ sput k a l) : p = (k, a) ∨ p ∈ l := by
  induction l with
  | nil => simp [sput] at h; exact Or.inl h
  | cons x rest ih =>
    obtain ⟨j, b⟩ := x
    simp only [sput] at h
    split at h
    · simp only [List.mem_cons] at h ⊢; tauto
    · split at h
      · simp only [List.mem_cons] at h ⊢; tauto
      · simp only [List.mem_cons] at h ⊢
        rcases h with h | h
        · exact Or.inr (Or.inl h)
        · rcases ih h with h | h
          · exact Or.inl h
          · exact Or.inr (Or.inr h)

theorem mem_of_mem_sdrop {α : Type} {k : Nat} {l : List (Nat × α)} {p : Nat × α} (h : p ∈ sdrop k l) : p ∈ l := by
  induction l with
  | nil => simp [sdrop] at h
  | cons x rest ih =>
    obtain ⟨j, b⟩ := x
    simp only [sdrop] at h
    split at h
    · exact List.mem_cons_of_mem _ h
    · simp only [List.mem_cons] at h ⊢
      rcases h with h | h
      · exact Or.inl h
      · exact Or.inr (ih h)

/-- A list in rising order, as a pairwise relation of its entries. -/
theorem rising_iff {α : Type} (l : List (Nat × α)) : (l.map Prod.fst).Pairwise (· < ·) ↔ l.Pairwise (fun a b => a.1 < b.1) := by
  simp [List.pairwise_map]

/-- Putting an entry keeps a sparse list in its one form. -/
theorem Ordered.sput {α : Type} {bound k : Nat} {l : List (Nat × α)} (h : Ordered bound l) (hk : k < bound) (a : α) :
    Ordered bound (sput k a l) := by
  refine ⟨?_, fun p hp => ?_⟩
  · have h1 := (rising_iff l).1 h.1
    rw [rising_iff]
    clear h
    induction l with
    | nil => simp [Machine.sput]
    | cons x rest ih =>
      obtain ⟨j, b⟩ := x
      rw [List.pairwise_cons] at h1
      simp only [Machine.sput]
      split
      · next hlt =>
        refine List.pairwise_cons.2 ⟨fun p hp => ?_, List.pairwise_cons.2 h1⟩
        rcases List.mem_cons.1 hp with rfl | hp
        · exact hlt
        · exact Nat.lt_trans hlt (h1.1 p hp)
      · split
        · next hj => subst hj; exact List.pairwise_cons.2 ⟨fun p hp => h1.1 p hp, h1.2⟩
        · next hlt hne =>
          refine List.pairwise_cons.2 ⟨fun p hp => ?_, ih h1.2⟩
          rcases mem_sput hp with rfl | hp
          · show j < k; omega
          · exact h1.1 p hp
  · rcases mem_sput hp with rfl | hp
    · exact hk
    · exact h.2 p hp

/-- Dropping an entry keeps a sparse list in its one form. -/
theorem Ordered.sdrop {α : Type} {bound : Nat} {l : List (Nat × α)} (h : Ordered bound l) (k : Nat) : Ordered bound (sdrop k l) := by
  refine ⟨?_, fun p hp => h.2 p (mem_of_mem_sdrop hp)⟩
  have h1 := (rising_iff l).1 h.1
  rw [rising_iff]
  clear h
  induction l with
  | nil => simp [Machine.sdrop]
  | cons x rest ih =>
    obtain ⟨j, b⟩ := x
    rw [List.pairwise_cons] at h1
    simp only [Machine.sdrop]
    split
    · exact h1.2
    · exact List.pairwise_cons.2 ⟨fun p hp => h1.1 p (mem_of_mem_sdrop hp), ih h1.2⟩

/-- A dropped index is no longer held. -/
theorem sfind_sdrop_self {α : Type} {bound : Nat} {l : List (Nat × α)} (h : Ordered bound l) (k : Nat) : sfind k (sdrop k l) = none := by
  have h1 := (rising_iff l).1 h.1
  clear h
  induction l with
  | nil => rfl
  | cons x rest ih =>
    obtain ⟨j, b⟩ := x
    rw [List.pairwise_cons] at h1
    simp only [sdrop]
    split
    · next hj => subst hj; exact sfind_eq_none_of_lt (fun p hp => h1.1 p hp)
    · next hj => simp [sfind, hj, ih h1.2]

/-- Writing an index that is held changes no count. -/
theorem length_sput_of_found {α : Type} {bound k : Nat} {l : List (Nat × α)} {b : α} (h : Ordered bound l) (hf : sfind k l = some b) (a : α) :
    (sput k a l).length = l.length := by
  have h1 := (rising_iff l).1 h.1
  clear h
  induction l with
  | nil => simp [sfind] at hf
  | cons x rest ih =>
    obtain ⟨j, c⟩ := x
    rw [List.pairwise_cons] at h1
    simp only [sput]
    by_cases hj : j = k
    · subst hj; simp
    · have hr : sfind k rest = some b := by simpa [sfind, hj] using hf
      have hm := h1.1 _ (mem_of_sfind hr)
      have hn : ¬ k < j := by simp only at hm; omega
      simp [hj, hn, ih hr h1.2]

/-- Dropping an index that is held lowers the count by one. -/
theorem length_sdrop_of_found {α : Type} {k : Nat} {l : List (Nat × α)} {b : α} (hf : sfind k l = some b) :
    (sdrop k l).length + 1 = l.length := by
  induction l with
  | nil => simp [sfind] at hf
  | cons x rest ih =>
    obtain ⟨j, c⟩ := x
    simp only [sdrop]
    by_cases hj : j = k
    · simp [hj]
    · have hr : sfind k rest = some b := by simpa [sfind, hj] using hf
      simp [hj, ih hr]

/-- The lowest free index from `k` on is not held, and lies not below `k`. -/
theorem lowestFree_spec {α : Type} {k : Nat} {l : List (Nat × α)} (h : l.Pairwise (fun a b => a.1 < b.1)) (hk : ∀ p ∈ l, k ≤ p.1) :
    k ≤ lowestFree k l ∧ sfind (lowestFree k l) l = none := by
  induction l generalizing k with
  | nil => simp [lowestFree, sfind]
  | cons x rest ih =>
    obtain ⟨j, c⟩ := x
    rw [List.pairwise_cons] at h
    have hj : k ≤ j := hk (j, c) (by simp)
    simp only [lowestFree]
    split
    · next he =>
      subst he
      have := ih (k := j + 1) h.2 (fun p hp => h.1 p hp)
      refine ⟨by omega, ?_⟩
      simp only [sfind]
      rw [if_neg (by omega)]
      exact this.2
    · next he =>
      refine ⟨Nat.le_refl k, ?_⟩
      exact sfind_eq_none_of_lt (fun p hp => by
        rcases List.mem_cons.1 hp with rfl | hp
        · show k < j; omega
        · have := h.1 p hp; simp only at this; omega)

/-! ### A command's turn -/

theorem settle_of_settled {s : State} (h : s.settled = true) : s.settle = s := by simp [State.settle, h]

theorem takeEvent_of_settled (f : State → State) {s : State} (h : s.settled = true) : takeEvent f s = (f s).look := by
  simp [takeEvent, settle_of_settled h]

/-- The head of a queue, and what stands behind it. -/
theorem queue_of_head {s : State} {ch : Channel} {rq : Request} (h : (s.chan ch).queue.head? = some rq) :
    (s.chan ch).queue = rq :: (s.chan ch).queue.tail := by
  cases hq : (s.chan ch).queue with
  | nil => simp [hq] at h
  | cons a l => simp [hq] at h; simp [h]

theorem grantAt_of_granted {s : State} {g : Grant} {p : ArbPos} (h : s.arbiter.store = .granted g) (hp : g.pos = p) : s.grantAt p = some g := by
  simp [State.grantAt, h, hp]

theorem grantedHead_of_head {k : RequestKind} {ch : Channel} {rq : Request} {g : Grant} {s : State} (hq : (s.chan ch).queue.head? = some rq)
    (hk : rq.kind = requestCode k) (hs : s.arbiter.store = .granted g) (hp : g.pos = posOf ch) :
    grantedHead k ch s = some (rq, g) := by
  rw [grantedHead, queue_of_head hq, grantAt_of_granted hs hp]
  simp [hk]

/-- A store request at its turn is its operation, the answer and the end of the grant. -/
theorem runStore_of_turn {k : RequestKind} {ch : Channel} {rq : Request} {g : Grant} {s : State} (h : StoreTurn k ch rq g s)
    (f : Request → Grant → State → OpResult) :
    runStore k ch f s = endGrant g (f rq g s).halting (f rq g s).out ((f rq g s).st.answer ch rq (f rq g s).code (f rq g s).body) := by
  simp [runStore, settle_of_settled h.settled, grantedHead_of_head h.head h.kind h.granted h.position, execChecked, h.passes]

/-- A channel-local request at its turn is its operation and the answer. -/
theorem runLocal_of_turn {k : RequestKind} {ch : Channel} {rq : Request} {s : State} (h : LocalTurn k ch rq s)
    (f : Request → State → OpResult) :
    runLocal k ch f s = ((f rq s).st.answer ch rq (f rq s).code (f rq s).body).look := by
  have hq : localHead k ch s = some rq := by
    rw [localHead, queue_of_head h.head]
    simp [h.kind]
  simp [runLocal, settle_of_settled h.settled, hq, execChecked, h.passes]

/-- A store request that a common check refuses. -/
theorem runStore_of_refusal {k : RequestKind} {ch : Channel} {rq : Request} {g : Grant} {code : RespCode} {s : State} (h : s.settled = true)
    (hq : (s.chan ch).queue.head? = some rq) (hk : rq.kind = requestCode k) (hs : s.arbiter.store = .granted g) (hp : g.pos = posOf ch)
    (hc : commonRefusal k ch rq.body s.control.condition = some code) (f : Request → Grant → State → OpResult) :
    runStore k ch f s = endGrant g false [] (s.answer ch rq code []) := by
  simp [runStore, settle_of_settled h, grantedHead_of_head hq hk hs hp, execChecked, hc, refuseWith]

/-- A channel-local request that a common check refuses. -/
theorem runLocal_of_refusal {k : RequestKind} {ch : Channel} {rq : Request} {code : RespCode} {s : State} (h : s.settled = true)
    (hq : (s.chan ch).queue.head? = some rq) (hk : rq.kind = requestCode k)
    (hc : commonRefusal k ch rq.body s.control.condition = some code) (f : Request → State → OpResult) :
    runLocal k ch f s = s.finishLocal ch rq code [] := by
  have hh : localHead k ch s = some rq := by
    rw [localHead, queue_of_head hq]
    simp [hk]
  simp [runLocal, settle_of_settled h, hh, execChecked, hc, refuseWith, State.finishLocal]

/-- An entry at its turn, of the kind of its command. -/
theorem runEntry_of_turn {e : Entry} {g : Grant} {s : State} (h : EntryTurn e g s) (isKind : Report → Bool) (hk : isKind e.report = true)
    (f : Entry → Work → Work) :
    runEntry isKind f s = endGrant g (f e (workOf s g)).halting (f e (workOf s g)).out
      { s.commit (f e (workOf s g)) with updateQueue := s.updateQueue.tail } := by
  have hq : s.updateQueue = e :: s.updateQueue.tail := by
    have := h.head
    cases hu : s.updateQueue with
    | nil => simp [hu] at this
    | cons a l => simp [hu] at this; simp [this]
  rw [runEntry, settle_of_settled h.settled, grantAt_of_granted h.granted h.position, hq]
  simp [hk]

/-- A visit at its turn, of the kind of its command. -/
theorem runVisit_of_turn {j : Job} {slot : Nat} {g : Grant} {s : State} (h : VisitTurn j slot g s) (isKind : JobKind → Bool)
    (hk : isKind j.kind = true) (f : Nat → Work → Work) :
    runVisit isKind f s = endGrant g (f slot (workOf s g)).halting (f slot (workOf s g)).out
      { s.commit (f slot (workOf s g)) with walker := { s.walker with running := some { j with position := some slot } } } := by
  have hv : visitSlot isKind s = some (j, slot, g) := by
    simp [visitSlot, h.running, grantAt_of_granted h.granted h.position, hk, h.ahead]
  simp [runVisit, settle_of_settled h.settled, hv]

/-- The head of the due list at its turn. -/
theorem dueHead_of_turn {i : DueItem} {g : Grant} {s : State} (h : DueTurn i g s) : dueHead s = some (i, s.expiry.dueList.tail, g) := by
  have hq : s.expiry.dueList = i :: s.expiry.dueList.tail := by
    have := h.head
    cases hu : s.expiry.dueList with
    | nil => simp [hu] at this
    | cons a l => simp [hu] at this; simp [this]
  rw [dueHead, grantAt_of_granted h.granted h.position, hq]
  simp

/-! ### The Walker at rest and the end of a grant -/

/-- A Walker at rest has nothing to complete and nothing to start. -/
theorem walkerRun_of_rest {s : State} (h : s.walkerAtRest) (minute : Minute) (fuel : Nat) : walkerRun minute fuel s = (s, []) := by
  cases fuel with
  | zero => rfl
  | succ n =>
    unfold State.walkerAtRest at h
    cases hr : s.walker.running with
    | some j => simp [hr] at h; simp [walkerRun, hr, h]
    | none => simp [hr] at h; simp [walkerRun, hr, startPending, h.1, h.2.1, h.2.2]

/-- The end of a grant that has not halted the device, with the Walker at rest. -/
theorem endGrant_of_rest {s : State} (h : s.walkerAtRest) (g : Grant) (out : List (Channel × Notice)) :
    endGrant g false out s = (s.offerAll out).idled.look := by
  simp [endGrant, walkerRun_of_rest h, State.idled]

/-- The end of a grant that has halted the device (R31, R180(d), R193). -/
theorem endGrant_of_halting (g : Grant) (out : List (Channel × Notice)) (s : State) :
    endGrant g true out s = (s.enterHalted.offerAll (out ++ deviceHalted g.clock)).idled.look := by
  simp [endGrant, State.idled]

@[simp] theorem offerAll_nil (s : State) : s.offerAll [] = s := rfl

theorem walkerAtRest_answer {ch : Channel} {rq : Request} {code : RespCode} {body : List Byte} {s : State} :
    (s.answer ch rq code body).walkerAtRest ↔ s.walkerAtRest := Iff.rfl

/-- A store request whose operation gives no notice and leaves the Walker at rest. -/
theorem runStore_quiet {k : RequestKind} {ch : Channel} {rq : Request} {g : Grant} {s t : State} {code : RespCode} {body : List Byte}
    (h : StoreTurn k ch rq g s) (f : Request → Grant → State → OpResult)
    (hf : f rq g s = { st := t, code := code, body := body, out := [], halting := false }) (ht : t.walkerAtRest) :
    runStore k ch f s = t.finishStore ch rq code body := by
  rw [runStore_of_turn h, hf]
  exact endGrant_of_rest (walkerAtRest_answer.2 ht) g []

/-- A channel-local request at its turn, by its result. -/
theorem runLocal_quiet {k : RequestKind} {ch : Channel} {rq : Request} {s t : State} {code : RespCode} {body : List Byte}
    (h : LocalTurn k ch rq s) (f : Request → State → OpResult)
    (hf : f rq s = { st := t, code := code, body := body, out := [], halting := false }) :
    runLocal k ch f s = t.finishLocal ch rq code body := by
  rw [runLocal_of_turn h, hf]
  rfl

/-- Work that has changed nothing, committed. -/
theorem commit_workOf (s : State) (g : Grant) : s.commit (workOf s g) = s := rfl

/-- The end of work that has changed nothing. -/
theorem finishWork_workOf (s : State) (g : Grant) (code : RespCode) (body : List Byte) :
    finishWork s (workOf s g) code body = { st := s, code := code, body := body, out := [], halting := false } := rfl

/-! ### Reads of storage free of error -/

theorem checkWay_of_sound {w : Work} (h : w.store.wayHealth = []) (k : Nat) : checkWay w k = w := by
  simp [checkWay, h, sfind]

theorem checkOverflow_of_sound {w : Work} (h : w.store.overflowHealth = []) (k : Nat) : checkOverflow w k = w := by
  simp [checkOverflow, h, sfind]

theorem foldl_checkWay_of_sound {w : Work} (h : w.store.wayHealth = []) (l : List Nat) : l.foldl checkWay w = w := by
  induction l with
  | nil => rfl
  | cons k rest ih => rw [List.foldl_cons, checkWay_of_sound h, ih]

theorem foldl_checkOverflow_of_sound {w : Work} (h : w.store.overflowHealth = []) (l : List Nat) : l.foldl checkOverflow w = w := by
  induction l with
  | nil => rfl
  | cons k rest ih => rw [List.foldl_cons, checkOverflow_of_sound h, ih]

/-- A lookup in sound storage changes nothing. -/
theorem lookupBin_work {w : Work} (h : w.store.sound) (b : BinNumber) : (lookupBin b w).1 = w := by
  simp only [lookupBin, foldl_checkWay_of_sound h.1]
  split
  · rfl
  · simp only [foldl_checkOverflow_of_sound h.2.1]
    split <;> rfl

/-- A lookup in sound storage finds the slot of the bin number. -/
theorem lookupBin_slot {w : Work} (h : w.store.sound) (b : BinNumber) : (lookupBin b w).2.map Prod.snd = w.store.locate b := by
  simp only [lookupBin, foldl_checkWay_of_sound h.1, RecordStore.locate]
  split
  · next hf => rw [hf]; rfl
  · next hf =>
    simp only [foldl_checkOverflow_of_sound h.2.1, hf]
    split
    · next ho => rw [ho]; rfl
    · next ho => rw [ho]; rfl

theorem findBin_work {w : Work} (h : w.store.sound) (b : BinNumber) : (findBin b w).1 = w := by
  simp only [findBin]
  have := lookupBin_work h b
  split
  · exact this
  · split <;> exact this

/-- A bin number that is not found in sound storage. -/
theorem findBin_of_unknown {w : Work} (h : w.store.sound) {b : BinNumber} (hl : w.store.locate b = none) : findBin b w = (w, none) := by
  have h2 := lookupBin_slot h b
  rw [hl, Option.map_eq_none_iff] at h2
  simp [findBin, h2, lookupBin_work h b]

/-- A record found in sound storage. -/
theorem findBin_of_holds {w : Work} (h : w.store.sound) {b : BinNumber} {slot : Nat} {r : BinRecord} (hl : w.store.holds b slot r) :
    ∃ place, lookupBin b w = (w, some (place, slot)) ∧ findBin b w = (w, some (place, slot, r)) := by
  have h1 := lookupBin_work h b
  have h2 := lookupBin_slot h b
  rw [hl.1, Option.map_eq_some_iff] at h2
  obtain ⟨⟨place, n⟩, hp, hn⟩ := h2
  cases hn
  refine ⟨place, Prod.ext h1 hp, ?_⟩
  have hr : w.record n = some r := hl.2
  simp [findBin, hp, h1, hr]

/-- The groups of a record in sound storage are sound. -/
theorem RecordStore.sound.groups {st : RecordStore} (h : st.sound) {slot : Nat} {r : BinRecord} (hr : sfind slot st.slots = some r) :
    r.keyHealth = .sound ∧ r.readingHealth = .sound := h.2.2 _ (mem_of_sfind hr)

theorem checkKey_of_sound {w : Work} (h : w.store.sound) (slot : Nat) : checkKey slot w = w := by
  unfold checkKey
  split
  · rfl
  · next r hr => rw [(h.groups hr).1]

theorem checkReading_of_sound {w : Work} (h : w.store.sound) (ends : Bool) (slot : Nat) : checkReading ends slot w = w := by
  unfold checkReading
  split
  · rfl
  · next r hr => rw [(h.groups hr).2]

/-- The reads of a record in sound storage change nothing. -/
theorem readGroups_of_sound {w : Work} (h : w.store.sound) (ends : Bool) (slot : Nat) : readGroups ends slot w = w := by
  rw [readGroups, checkKey_of_sound h, checkReading_of_sound h]

/-! ### Ready evaluation, step by step -/

theorem Work.record_putRecord (slot : Nat) (r : BinRecord) (w : Work) : (w.putRecord slot r).record slot = some r := sfind_sput_self _ _ _

theorem Work.record_putRecord_ne {slot n : Nat} (r : BinRecord) (w : Work) (h : n ≠ slot) : (w.putRecord slot r).record n = w.record n :=
  sfind_sput_ne _ _ h

/-- The list step writes the record's membership and nothing else of it (R97). -/
theorem listStep_record (claimForm : Bool) {slot : Nat} {r : BinRecord} {w : Work} (h : w.record slot = some r) :
    (listStep claimForm slot w).record slot = some (setReady (readyTest (w.zone r.key.zone) r) r) := by
  unfold listStep
  rw [h]
  dsimp only
  cases ht : readyTest (w.zone r.key.zone) r <;> cases hr : r.key.ready <;> dsimp only
  · rw [h]; simp [setReady, ← hr]
  · exact Work.record_putRecord _ _ _
  · exact Work.record_putRecord _ _ _
  · show w.record slot = _
    rw [h]; simp [setReady, ← hr]

/-- The urgent step writes the record's urgent flag and nothing else of it (R98). -/
theorem urgentStep_record {slot : Nat} {r : BinRecord} {w : Work} (h : w.record slot = some r) :
    (urgentStep slot w).record slot = some (setUrgent (urgentTest (w.zone r.key.zone) r) r) := by
  unfold urgentStep
  rw [h]
  dsimp only
  cases ht : urgentTest (w.zone r.key.zone) r <;> cases hr : r.key.urgent <;> dsimp only
  · rw [h]; simp [setUrgent, ← hr]
  · exact Work.record_putRecord _ _ _
  · unfold Work.giveUrgent
    split
    · exact Work.record_putRecord _ _ _
    · split <;> exact Work.record_putRecord _ _ _
  · rw [h]; simp [setUrgent, ← hr]

/-- The band step writes the record's band and nothing else of it (R99). -/
theorem bandStep_record {slot : Nat} {r : BinRecord} {w : Work} (h : w.record slot = some r) :
    (bandStep slot w).record slot = some (setBand (bandTest r) r) := by
  unfold bandStep
  rw [h]
  dsimp only
  split
  · next hb => rw [h, setBand, hb]
  · exact Work.record_putRecord _ _ _

/-! ### Admission (R33, R37) -/

/-- No reset purges a queue while no grant is in progress (R37). -/
theorem State.purging_of_idle {s : State} (h : s.arbiter.store = .idle) (ch : Channel) : s.purging ch = false := by
  simp [State.purging, State.grantAt, h]

/-- A request is admitted to a queue that holds fewer than four, or that a reset is about to purge (R33, R37). -/
theorem State.takeIn_admitted {s : State} {ch : Channel} (rq : Request) (h : (s.chan ch).queue.length < 4 ∨ s.purging ch = true) :
    s.takeIn ch rq = s.modChan ch (fun c => { c with queue := c.queue ++ [rq] }) :=
  if_pos (by simpa [Config.channelQueuePlaces] using h)

/-- It is refused CHANNEL_FULL by a queue that holds four and is not to be purged (R33). -/
theorem State.takeIn_refused {s : State} {ch : Channel} (rq : Request) (h : 4 ≤ (s.chan ch).queue.length) (hp : s.purging ch = false) :
    s.takeIn ch rq = (s.bump .channelFulls).respond (arrivalResponse (channelByte ch) rq.tag rq.kind .channelFull) :=
  if_neg (by simp [Config.channelQueuePlaces, hp]; omega)

/-! ### Who is given a notice, in the two ways of writing it (R109, R170) -/

theorem copies_eq_toEach : copies = toEach := rfl

theorem watchersAndZero_eq (z : Zone) : watchersAndZero z = z.zeroAndAll := rfl

theorem unmutedWatchers_eq (z : Zone) : unmutedWatchers z = z.watching := by
  unfold unmutedWatchers Zone.watching watchersOf members
  cases z.noticeMute <;> simp

theorem unmutedAndZero_eq (z : Zone) : unmutedAndZero z = z.zeroAndWatching := by
  unfold unmutedAndZero Zone.zeroAndWatching watchersAndZero
  cases z.noticeMute
  · simp
  · simp only [Bool.not_true, Bool.and_false, Bool.or_false, if_true]
    decide

theorem binNotice_eq_about (k : NoticeKind) (r : BinRecord) (minute : Minute) : binNotice k r minute = about k r minute := by
  unfold binNotice about fillValue
  cases r.reading.fill <;> rfl

/-- The notices of the ready list's step: READY or, outside the claim form, WITHDRAWN to the watchers (R97, R100). -/
theorem listStep_out (claimForm : Bool) {slot : Nat} {r : BinRecord} {w : Work} (h : w.record slot = some r) :
    (listStep claimForm slot w).out = w.out ++
      if readyTest (w.zone r.key.zone) r = true ∧ r.key.ready = false then toEach (w.zone r.key.zone).watching (about .ready r w.clock)
      else if readyTest (w.zone r.key.zone) r = false ∧ r.key.ready = true ∧ claimForm = false then
        toEach (w.zone r.key.zone).watching (about .withdrawn r w.clock)
      else [] := by
  unfold listStep
  rw [h]
  dsimp only
  cases ht : readyTest (w.zone r.key.zone) r <;> cases hr : r.key.ready <;> cases claimForm <;>
    simp [Work.give, Work.putRecord, Work.setReadyList, Work.modZone, unmutedWatchers_eq, binNotice_eq_about, copies_eq_toEach, toEach]

/-! ### Releases on a store free of error -/

theorem readingLost_of_sound {st : RecordStore} (h : st.sound) (slot : Nat) : st.readingLost slot = false := by
  unfold RecordStore.readingLost
  split
  · next r hr => rw [(h.2.2 _ (mem_of_sfind hr)).2]; rfl
  · rfl

theorem keysReadable_of_sound {st : RecordStore} (h : st.sound) (slots : List Nat) : st.keysReadable slots := fun _ _ _ hr => by
  rw [(h.2.2 _ (mem_of_sfind hr)).1]
  decide

/-- A record whose reading group is lost is poisoned by its release (R123, R192). -/
theorem releasedFrom_of_lost (z : Zone) {r : BinRecord} (h : r.readingHealth = .double) : releasedFrom z r = poisonedFrom r := if_pos h

/-- A record free of error is unclaimed and evaluated by its release (R115). -/
theorem releasedFrom_of_sound (z : Zone) {r : BinRecord} (hk : r.keyHealth = .sound) (hr : r.readingHealth = .sound) :
    releasedFrom z r = evaluated z { r with key := { r.key with claim := none } } := by
  cases r
  simp only at hk hr
  subst hk hr
  rfl

/-- On a store free of error the members taken are RELEASED. -/
theorem membersTaken_of_sound {st : RecordStore} (h : st.sound) (taken ms : List Member) :
    membersTaken st taken ms = ms.map (fun m => if taken.contains m then { m with state := .released } else m) := by
  simp [membersTaken, readingLost_of_sound h]

/-- On a store free of error the notices of a release are those of the freed records. -/
theorem releaseNotices_of_sound {s : State} (h : s.store.sound) (taken : List Member) (minute : Minute) :
    s.releaseNotices taken minute = s.freedNotices taken minute := by
  simp [State.releaseNotices, readingLost_of_sound h]

end Sys2Proof.Machine
end

