-- ==== Sys2Proof/Laws/Work.lean ====
section
/-! SUPPORT. One lemma for each field of a granted operation's work and each shared operation: the fields the operation never writes, and what the
plain ones write. -/

namespace Sys2Proof.Machine

/-! ### Plain updates -/

@[simp] theorem Work.bump_slots (w : Work) (c : Counter) : (w.bump c).store.slots = w.store.slots := rfl
@[simp] theorem Work.bump_ways (w : Work) (c : Counter) : (w.bump c).store.ways = w.store.ways := rfl
@[simp] theorem Work.bump_overflow (w : Work) (c : Counter) : (w.bump c).store.overflow = w.store.overflow := rfl
@[simp] theorem Work.bump_wayHealth (w : Work) (c : Counter) : (w.bump c).store.wayHealth = w.store.wayHealth := rfl
@[simp] theorem Work.bump_overflowHealth (w : Work) (c : Counter) : (w.bump c).store.overflowHealth = w.store.overflowHealth := rfl
@[simp] theorem Work.bump_zones (w : Work) (c : Counter) : (w.bump c).store.zones = w.store.zones := rfl
@[simp] theorem Work.bump_routes (w : Work) (c : Counter) : (w.bump c).store.routes = w.store.routes := rfl
@[simp] theorem Work.bump_users (w : Work) (c : Counter) : (w.bump c).users = w.users := rfl
@[simp] theorem Work.bump_deadlines (w : Work) (c : Counter) : (w.bump c).deadlines = w.deadlines := rfl
@[simp] theorem Work.bump_condition (w : Work) (c : Counter) : (w.bump c).condition = w.condition := rfl
@[simp] theorem Work.bump_counters (w : Work) (c : Counter) : (w.bump c).counters = bumpIn c w.counters := rfl
@[simp] theorem Work.bump_active (w : Work) (c : Counter) : (w.bump c).active = w.active := rfl
@[simp] theorem Work.bump_clock (w : Work) (c : Counter) : (w.bump c).clock = w.clock := rfl
@[simp] theorem Work.bump_out (w : Work) (c : Counter) : (w.bump c).out = w.out := rfl
@[simp] theorem Work.bump_halting (w : Work) (c : Counter) : (w.bump c).halting = w.halting := rfl

@[simp] theorem Work.give_slots (w : Work) (chs : List Channel) (n : Notice) : (w.give chs n).store.slots = w.store.slots := rfl
@[simp] theorem Work.give_ways (w : Work) (chs : List Channel) (n : Notice) : (w.give chs n).store.ways = w.store.ways := rfl
@[simp] theorem Work.give_overflow (w : Work) (chs : List Channel) (n : Notice) : (w.give chs n).store.overflow = w.store.overflow := rfl
@[simp] theorem Work.give_wayHealth (w : Work) (chs : List Channel) (n : Notice) : (w.give chs n).store.wayHealth = w.store.wayHealth := rfl
@[simp] theorem Work.give_overflowHealth (w : Work) (chs : List Channel) (n : Notice) : (w.give chs n).store.overflowHealth = w.store.overflowHealth := rfl
@[simp] theorem Work.give_zones (w : Work) (chs : List Channel) (n : Notice) : (w.give chs n).store.zones = w.store.zones := rfl
@[simp] theorem Work.give_routes (w : Work) (chs : List Channel) (n : Notice) : (w.give chs n).store.routes = w.store.routes := rfl
@[simp] theorem Work.give_users (w : Work) (chs : List Channel) (n : Notice) : (w.give chs n).users = w.users := rfl
@[simp] theorem Work.give_deadlines (w : Work) (chs : List Channel) (n : Notice) : (w.give chs n).deadlines = w.deadlines := rfl
@[simp] theorem Work.give_condition (w : Work) (chs : List Channel) (n : Notice) : (w.give chs n).condition = w.condition := rfl
@[simp] theorem Work.give_counters (w : Work) (chs : List Channel) (n : Notice) : (w.give chs n).counters = w.counters := rfl
@[simp] theorem Work.give_active (w : Work) (chs : List Channel) (n : Notice) : (w.give chs n).active = w.active := rfl
@[simp] theorem Work.give_clock (w : Work) (chs : List Channel) (n : Notice) : (w.give chs n).clock = w.clock := rfl
@[simp] theorem Work.give_out (w : Work) (chs : List Channel) (n : Notice) : (w.give chs n).out = w.out ++ copies chs n := rfl
@[simp] theorem Work.give_halting (w : Work) (chs : List Channel) (n : Notice) : (w.give chs n).halting = w.halting := rfl

@[simp] theorem Work.putRecord_slots (w : Work) (slot : Nat) (r : BinRecord) : (w.putRecord slot r).store.slots = sput slot r w.store.slots := rfl
@[simp] theorem Work.putRecord_ways (w : Work) (slot : Nat) (r : BinRecord) : (w.putRecord slot r).store.ways = w.store.ways := rfl
@[simp] theorem Work.putRecord_overflow (w : Work) (slot : Nat) (r : BinRecord) : (w.putRecord slot r).store.overflow = w.store.overflow := rfl
@[simp] theorem Work.putRecord_wayHealth (w : Work) (slot : Nat) (r : BinRecord) : (w.putRecord slot r).store.wayHealth = w.store.wayHealth := rfl
@[simp] theorem Work.putRecord_overflowHealth (w : Work) (slot : Nat) (r : BinRecord) : (w.putRecord slot r).store.overflowHealth = w.store.overflowHealth := rfl
@[simp] theorem Work.putRecord_zones (w : Work) (slot : Nat) (r : BinRecord) : (w.putRecord slot r).store.zones = w.store.zones := rfl
@[simp] theorem Work.putRecord_routes (w : Work) (slot : Nat) (r : BinRecord) : (w.putRecord slot r).store.routes = w.store.routes := rfl
@[simp] theorem Work.putRecord_users (w : Work) (slot : Nat) (r : BinRecord) : (w.putRecord slot r).users = w.users := rfl
@[simp] theorem Work.putRecord_deadlines (w : Work) (slot : Nat) (r : BinRecord) : (w.putRecord slot r).deadlines = w.deadlines := rfl
@[simp] theorem Work.putRecord_condition (w : Work) (slot : Nat) (r : BinRecord) : (w.putRecord slot r).condition = w.condition := rfl
@[simp] theorem Work.putRecord_counters (w : Work) (slot : Nat) (r : BinRecord) : (w.putRecord slot r).counters = w.counters := rfl
@[simp] theorem Work.putRecord_active (w : Work) (slot : Nat) (r : BinRecord) : (w.putRecord slot r).active = w.active := rfl
@[simp] theorem Work.putRecord_clock (w : Work) (slot : Nat) (r : BinRecord) : (w.putRecord slot r).clock = w.clock := rfl
@[simp] theorem Work.putRecord_out (w : Work) (slot : Nat) (r : BinRecord) : (w.putRecord slot r).out = w.out := rfl
@[simp] theorem Work.putRecord_halting (w : Work) (slot : Nat) (r : BinRecord) : (w.putRecord slot r).halting = w.halting := rfl

@[simp] theorem Work.modZone_slots (w : Work) (z : ZoneNo) (f : Zone → Zone) : (w.modZone z f).store.slots = w.store.slots := rfl
@[simp] theorem Work.modZone_ways (w : Work) (z : ZoneNo) (f : Zone → Zone) : (w.modZone z f).store.ways = w.store.ways := rfl
@[simp] theorem Work.modZone_overflow (w : Work) (z : ZoneNo) (f : Zone → Zone) : (w.modZone z f).store.overflow = w.store.overflow := rfl
@[simp] theorem Work.modZone_wayHealth (w : Work) (z : ZoneNo) (f : Zone → Zone) : (w.modZone z f).store.wayHealth = w.store.wayHealth := rfl
@[simp] theorem Work.modZone_overflowHealth (w : Work) (z : ZoneNo) (f : Zone → Zone) : (w.modZone z f).store.overflowHealth = w.store.overflowHealth := rfl
@[simp] theorem Work.modZone_zones (w : Work) (z : ZoneNo) (f : Zone → Zone) : (w.modZone z f).store.zones = vmod w.store.zones z f := rfl
@[simp] theorem Work.modZone_routes (w : Work) (z : ZoneNo) (f : Zone → Zone) : (w.modZone z f).store.routes = w.store.routes := rfl
@[simp] theorem Work.modZone_users (w : Work) (z : ZoneNo) (f : Zone → Zone) : (w.modZone z f).users = w.users := rfl
@[simp] theorem Work.modZone_deadlines (w : Work) (z : ZoneNo) (f : Zone → Zone) : (w.modZone z f).deadlines = w.deadlines := rfl
@[simp] theorem Work.modZone_condition (w : Work) (z : ZoneNo) (f : Zone → Zone) : (w.modZone z f).condition = w.condition := rfl
@[simp] theorem Work.modZone_counters (w : Work) (z : ZoneNo) (f : Zone → Zone) : (w.modZone z f).counters = w.counters := rfl
@[simp] theorem Work.modZone_active (w : Work) (z : ZoneNo) (f : Zone → Zone) : (w.modZone z f).active = w.active := rfl
@[simp] theorem Work.modZone_clock (w : Work) (z : ZoneNo) (f : Zone → Zone) : (w.modZone z f).clock = w.clock := rfl
@[simp] theorem Work.modZone_out (w : Work) (z : ZoneNo) (f : Zone → Zone) : (w.modZone z f).out = w.out := rfl
@[simp] theorem Work.modZone_halting (w : Work) (z : ZoneNo) (f : Zone → Zone) : (w.modZone z f).halting = w.halting := rfl

@[simp] theorem Work.modCounters_slots (w : Work) (z : ZoneNo) (f : ZoneCounters → ZoneCounters) : (w.modCounters z f).store.slots = w.store.slots := rfl
@[simp] theorem Work.modCounters_ways (w : Work) (z : ZoneNo) (f : ZoneCounters → ZoneCounters) : (w.modCounters z f).store.ways = w.store.ways := rfl
@[simp] theorem Work.modCounters_overflow (w : Work) (z : ZoneNo) (f : ZoneCounters → ZoneCounters) : (w.modCounters z f).store.overflow = w.store.overflow := rfl
@[simp] theorem Work.modCounters_wayHealth (w : Work) (z : ZoneNo) (f : ZoneCounters → ZoneCounters) : (w.modCounters z f).store.wayHealth = w.store.wayHealth := rfl
@[simp] theorem Work.modCounters_overflowHealth (w : Work) (z : ZoneNo) (f : ZoneCounters → ZoneCounters) : (w.modCounters z f).store.overflowHealth = w.store.overflowHealth := rfl
@[simp] theorem Work.modCounters_zones (w : Work) (z : ZoneNo) (f : ZoneCounters → ZoneCounters) : (w.modCounters z f).store.zones = vmod w.store.zones z (fun zn => { zn with counters := f zn.counters }) := rfl
@[simp] theorem Work.modCounters_routes (w : Work) (z : ZoneNo) (f : ZoneCounters → ZoneCounters) : (w.modCounters z f).store.routes = w.store.routes := rfl
@[simp] theorem Work.modCounters_users (w : Work) (z : ZoneNo) (f : ZoneCounters → ZoneCounters) : (w.modCounters z f).users = w.users := rfl
@[simp] theorem Work.modCounters_deadlines (w : Work) (z : ZoneNo) (f : ZoneCounters → ZoneCounters) : (w.modCounters z f).deadlines = w.deadlines := rfl
@[simp] theorem Work.modCounters_condition (w : Work) (z : ZoneNo) (f : ZoneCounters → ZoneCounters) : (w.modCounters z f).condition = w.condition := rfl
@[simp] theorem Work.modCounters_counters (w : Work) (z : ZoneNo) (f : ZoneCounters → ZoneCounters) : (w.modCounters z f).counters = w.counters := rfl
@[simp] theorem Work.modCounters_active (w : Work) (z : ZoneNo) (f : ZoneCounters → ZoneCounters) : (w.modCounters z f).active = w.active := rfl
@[simp] theorem Work.modCounters_clock (w : Work) (z : ZoneNo) (f : ZoneCounters → ZoneCounters) : (w.modCounters z f).clock = w.clock := rfl
@[simp] theorem Work.modCounters_out (w : Work) (z : ZoneNo) (f : ZoneCounters → ZoneCounters) : (w.modCounters z f).out = w.out := rfl
@[simp] theorem Work.modCounters_halting (w : Work) (z : ZoneNo) (f : ZoneCounters → ZoneCounters) : (w.modCounters z f).halting = w.halting := rfl

@[simp] theorem Work.setRoute_slots (w : Work) (i : RouteIdx) (r : Option Route) : (w.setRoute i r).store.slots = w.store.slots := rfl
@[simp] theorem Work.setRoute_ways (w : Work) (i : RouteIdx) (r : Option Route) : (w.setRoute i r).store.ways = w.store.ways := rfl
@[simp] theorem Work.setRoute_overflow (w : Work) (i : RouteIdx) (r : Option Route) : (w.setRoute i r).store.overflow = w.store.overflow := rfl
@[simp] theorem Work.setRoute_wayHealth (w : Work) (i : RouteIdx) (r : Option Route) : (w.setRoute i r).store.wayHealth = w.store.wayHealth := rfl
@[simp] theorem Work.setRoute_overflowHealth (w : Work) (i : RouteIdx) (r : Option Route) : (w.setRoute i r).store.overflowHealth = w.store.overflowHealth := rfl
@[simp] theorem Work.setRoute_zones (w : Work) (i : RouteIdx) (r : Option Route) : (w.setRoute i r).store.zones = w.store.zones := rfl
@[simp] theorem Work.setRoute_routes (w : Work) (i : RouteIdx) (r : Option Route) : (w.setRoute i r).store.routes = vset w.store.routes i r := rfl
@[simp] theorem Work.setRoute_users (w : Work) (i : RouteIdx) (r : Option Route) : (w.setRoute i r).users = w.users := rfl
@[simp] theorem Work.setRoute_deadlines (w : Work) (i : RouteIdx) (r : Option Route) : (w.setRoute i r).deadlines = w.deadlines := rfl
@[simp] theorem Work.setRoute_condition (w : Work) (i : RouteIdx) (r : Option Route) : (w.setRoute i r).condition = w.condition := rfl
@[simp] theorem Work.setRoute_counters (w : Work) (i : RouteIdx) (r : Option Route) : (w.setRoute i r).counters = w.counters := rfl
@[simp] theorem Work.setRoute_active (w : Work) (i : RouteIdx) (r : Option Route) : (w.setRoute i r).active = w.active := rfl
@[simp] theorem Work.setRoute_clock (w : Work) (i : RouteIdx) (r : Option Route) : (w.setRoute i r).clock = w.clock := rfl
@[simp] theorem Work.setRoute_out (w : Work) (i : RouteIdx) (r : Option Route) : (w.setRoute i r).out = w.out := rfl
@[simp] theorem Work.setRoute_halting (w : Work) (i : RouteIdx) (r : Option Route) : (w.setRoute i r).halting = w.halting := rfl

@[simp] theorem Work.setDeadline_slots (w : Work) (i : RouteIdx) (d : Option Minute) : (w.setDeadline i d).store.slots = w.store.slots := rfl
@[simp] theorem Work.setDeadline_ways (w : Work) (i : RouteIdx) (d : Option Minute) : (w.setDeadline i d).store.ways = w.store.ways := rfl
@[simp] theorem Work.setDeadline_overflow (w : Work) (i : RouteIdx) (d : Option Minute) : (w.setDeadline i d).store.overflow = w.store.overflow := rfl
@[simp] theorem Work.setDeadline_wayHealth (w : Work) (i : RouteIdx) (d : Option Minute) : (w.setDeadline i d).store.wayHealth = w.store.wayHealth := rfl
@[simp] theorem Work.setDeadline_overflowHealth (w : Work) (i : RouteIdx) (d : Option Minute) : (w.setDeadline i d).store.overflowHealth = w.store.overflowHealth := rfl
@[simp] theorem Work.setDeadline_zones (w : Work) (i : RouteIdx) (d : Option Minute) : (w.setDeadline i d).store.zones = w.store.zones := rfl
@[simp] theorem Work.setDeadline_routes (w : Work) (i : RouteIdx) (d : Option Minute) : (w.setDeadline i d).store.routes = w.store.routes := rfl
@[simp] theorem Work.setDeadline_users (w : Work) (i : RouteIdx) (d : Option Minute) : (w.setDeadline i d).users = w.users := rfl
@[simp] theorem Work.setDeadline_deadlines (w : Work) (i : RouteIdx) (d : Option Minute) : (w.setDeadline i d).deadlines = vset w.deadlines i d := rfl
@[simp] theorem Work.setDeadline_condition (w : Work) (i : RouteIdx) (d : Option Minute) : (w.setDeadline i d).condition = w.condition := rfl
@[simp] theorem Work.setDeadline_counters (w : Work) (i : RouteIdx) (d : Option Minute) : (w.setDeadline i d).counters = w.counters := rfl
@[simp] theorem Work.setDeadline_active (w : Work) (i : RouteIdx) (d : Option Minute) : (w.setDeadline i d).active = w.active := rfl
@[simp] theorem Work.setDeadline_clock (w : Work) (i : RouteIdx) (d : Option Minute) : (w.setDeadline i d).clock = w.clock := rfl
@[simp] theorem Work.setDeadline_out (w : Work) (i : RouteIdx) (d : Option Minute) : (w.setDeadline i d).out = w.out := rfl
@[simp] theorem Work.setDeadline_halting (w : Work) (i : RouteIdx) (d : Option Minute) : (w.setDeadline i d).halting = w.halting := rfl

@[simp] theorem Work.freeRoute_slots (w : Work) (i : RouteIdx) : (w.freeRoute i).store.slots = w.store.slots := rfl
@[simp] theorem Work.freeRoute_ways (w : Work) (i : RouteIdx) : (w.freeRoute i).store.ways = w.store.ways := rfl
@[simp] theorem Work.freeRoute_overflow (w : Work) (i : RouteIdx) : (w.freeRoute i).store.overflow = w.store.overflow := rfl
@[simp] theorem Work.freeRoute_wayHealth (w : Work) (i : RouteIdx) : (w.freeRoute i).store.wayHealth = w.store.wayHealth := rfl
@[simp] theorem Work.freeRoute_overflowHealth (w : Work) (i : RouteIdx) : (w.freeRoute i).store.overflowHealth = w.store.overflowHealth := rfl
@[simp] theorem Work.freeRoute_zones (w : Work) (i : RouteIdx) : (w.freeRoute i).store.zones = w.store.zones := rfl
@[simp] theorem Work.freeRoute_routes (w : Work) (i : RouteIdx) : (w.freeRoute i).store.routes = vset w.store.routes i none := rfl
@[simp] theorem Work.freeRoute_users (w : Work) (i : RouteIdx) : (w.freeRoute i).users = w.users := rfl
@[simp] theorem Work.freeRoute_deadlines (w : Work) (i : RouteIdx) : (w.freeRoute i).deadlines = vset w.deadlines i none := rfl
@[simp] theorem Work.freeRoute_condition (w : Work) (i : RouteIdx) : (w.freeRoute i).condition = w.condition := rfl
@[simp] theorem Work.freeRoute_counters (w : Work) (i : RouteIdx) : (w.freeRoute i).counters = w.counters := rfl
@[simp] theorem Work.freeRoute_active (w : Work) (i : RouteIdx) : (w.freeRoute i).active = w.active := rfl
@[simp] theorem Work.freeRoute_clock (w : Work) (i : RouteIdx) : (w.freeRoute i).clock = w.clock := rfl
@[simp] theorem Work.freeRoute_out (w : Work) (i : RouteIdx) : (w.freeRoute i).out = w.out := rfl
@[simp] theorem Work.freeRoute_halting (w : Work) (i : RouteIdx) : (w.freeRoute i).halting = w.halting := rfl

@[simp] theorem Work.setReadyList_slots (w : Work) (z : ZoneNo) (l : List Nat) (n : Nat → Nat) : (w.setReadyList z l n).store.slots = w.store.slots := rfl
@[simp] theorem Work.setReadyList_ways (w : Work) (z : ZoneNo) (l : List Nat) (n : Nat → Nat) : (w.setReadyList z l n).store.ways = w.store.ways := rfl
@[simp] theorem Work.setReadyList_overflow (w : Work) (z : ZoneNo) (l : List Nat) (n : Nat → Nat) : (w.setReadyList z l n).store.overflow = w.store.overflow := rfl
@[simp] theorem Work.setReadyList_wayHealth (w : Work) (z : ZoneNo) (l : List Nat) (n : Nat → Nat) : (w.setReadyList z l n).store.wayHealth = w.store.wayHealth := rfl
@[simp] theorem Work.setReadyList_overflowHealth (w : Work) (z : ZoneNo) (l : List Nat) (n : Nat → Nat) : (w.setReadyList z l n).store.overflowHealth = w.store.overflowHealth := rfl
@[simp] theorem Work.setReadyList_zones (w : Work) (z : ZoneNo) (l : List Nat) (n : Nat → Nat) : (w.setReadyList z l n).store.zones = vmod w.store.zones z (fun zn => { zn with readyList := l, counters := { zn.counters with readyMembers := n zn.counters.readyMembers } }) := rfl
@[simp] theorem Work.setReadyList_routes (w : Work) (z : ZoneNo) (l : List Nat) (n : Nat → Nat) : (w.setReadyList z l n).store.routes = w.store.routes := rfl
@[simp] theorem Work.setReadyList_users (w : Work) (z : ZoneNo) (l : List Nat) (n : Nat → Nat) : (w.setReadyList z l n).users = w.users := rfl
@[simp] theorem Work.setReadyList_deadlines (w : Work) (z : ZoneNo) (l : List Nat) (n : Nat → Nat) : (w.setReadyList z l n).deadlines = w.deadlines := rfl
@[simp] theorem Work.setReadyList_condition (w : Work) (z : ZoneNo) (l : List Nat) (n : Nat → Nat) : (w.setReadyList z l n).condition = w.condition := rfl
@[simp] theorem Work.setReadyList_counters (w : Work) (z : ZoneNo) (l : List Nat) (n : Nat → Nat) : (w.setReadyList z l n).counters = w.counters := rfl
@[simp] theorem Work.setReadyList_active (w : Work) (z : ZoneNo) (l : List Nat) (n : Nat → Nat) : (w.setReadyList z l n).active = w.active := rfl
@[simp] theorem Work.setReadyList_clock (w : Work) (z : ZoneNo) (l : List Nat) (n : Nat → Nat) : (w.setReadyList z l n).clock = w.clock := rfl
@[simp] theorem Work.setReadyList_out (w : Work) (z : ZoneNo) (l : List Nat) (n : Nat → Nat) : (w.setReadyList z l n).out = w.out := rfl
@[simp] theorem Work.setReadyList_halting (w : Work) (z : ZoneNo) (l : List Nat) (n : Nat → Nat) : (w.setReadyList z l n).halting = w.halting := rfl

@[simp] theorem Work.moveRecord_slots (w : Work) (slot : Nat) (st : RecState) (rd : ReadingGroup) (r : BinRecord) : (w.moveRecord slot st rd r).store.slots = sput slot { r with key := { r.key with state := st }, reading := rd } w.store.slots := rfl
@[simp] theorem Work.moveRecord_ways (w : Work) (slot : Nat) (st : RecState) (rd : ReadingGroup) (r : BinRecord) : (w.moveRecord slot st rd r).store.ways = w.store.ways := rfl
@[simp] theorem Work.moveRecord_overflow (w : Work) (slot : Nat) (st : RecState) (rd : ReadingGroup) (r : BinRecord) : (w.moveRecord slot st rd r).store.overflow = w.store.overflow := rfl
@[simp] theorem Work.moveRecord_wayHealth (w : Work) (slot : Nat) (st : RecState) (rd : ReadingGroup) (r : BinRecord) : (w.moveRecord slot st rd r).store.wayHealth = w.store.wayHealth := rfl
@[simp] theorem Work.moveRecord_overflowHealth (w : Work) (slot : Nat) (st : RecState) (rd : ReadingGroup) (r : BinRecord) : (w.moveRecord slot st rd r).store.overflowHealth = w.store.overflowHealth := rfl
@[simp] theorem Work.moveRecord_zones (w : Work) (slot : Nat) (st : RecState) (rd : ReadingGroup) (r : BinRecord) : (w.moveRecord slot st rd r).store.zones = vmod w.store.zones r.key.zone (fun zn => { zn with counters := enterState st (leaveState r.key.state zn.counters) }) := rfl
@[simp] theorem Work.moveRecord_routes (w : Work) (slot : Nat) (st : RecState) (rd : ReadingGroup) (r : BinRecord) : (w.moveRecord slot st rd r).store.routes = w.store.routes := rfl
@[simp] theorem Work.moveRecord_users (w : Work) (slot : Nat) (st : RecState) (rd : ReadingGroup) (r : BinRecord) : (w.moveRecord slot st rd r).users = w.users := rfl
@[simp] theorem Work.moveRecord_deadlines (w : Work) (slot : Nat) (st : RecState) (rd : ReadingGroup) (r : BinRecord) : (w.moveRecord slot st rd r).deadlines = w.deadlines := rfl
@[simp] theorem Work.moveRecord_condition (w : Work) (slot : Nat) (st : RecState) (rd : ReadingGroup) (r : BinRecord) : (w.moveRecord slot st rd r).condition = w.condition := rfl
@[simp] theorem Work.moveRecord_counters (w : Work) (slot : Nat) (st : RecState) (rd : ReadingGroup) (r : BinRecord) : (w.moveRecord slot st rd r).counters = w.counters := rfl
@[simp] theorem Work.moveRecord_active (w : Work) (slot : Nat) (st : RecState) (rd : ReadingGroup) (r : BinRecord) : (w.moveRecord slot st rd r).active = w.active := rfl
@[simp] theorem Work.moveRecord_clock (w : Work) (slot : Nat) (st : RecState) (rd : ReadingGroup) (r : BinRecord) : (w.moveRecord slot st rd r).clock = w.clock := rfl
@[simp] theorem Work.moveRecord_out (w : Work) (slot : Nat) (st : RecState) (rd : ReadingGroup) (r : BinRecord) : (w.moveRecord slot st rd r).out = w.out := rfl
@[simp] theorem Work.moveRecord_halting (w : Work) (slot : Nat) (st : RecState) (rd : ReadingGroup) (r : BinRecord) : (w.moveRecord slot st rd r).halting = w.halting := rfl

@[simp] theorem Work.emptyRecord_ways (w : Work) (t : Minute) (res : Option RawReading) (src : EmptiedBy) (slot : Nat) (r : BinRecord) : (w.emptyRecord t res src slot r).store.ways = w.store.ways := rfl
@[simp] theorem Work.emptyRecord_overflow (w : Work) (t : Minute) (res : Option RawReading) (src : EmptiedBy) (slot : Nat) (r : BinRecord) : (w.emptyRecord t res src slot r).store.overflow = w.store.overflow := rfl
@[simp] theorem Work.emptyRecord_wayHealth (w : Work) (t : Minute) (res : Option RawReading) (src : EmptiedBy) (slot : Nat) (r : BinRecord) : (w.emptyRecord t res src slot r).store.wayHealth = w.store.wayHealth := rfl
@[simp] theorem Work.emptyRecord_overflowHealth (w : Work) (t : Minute) (res : Option RawReading) (src : EmptiedBy) (slot : Nat) (r : BinRecord) : (w.emptyRecord t res src slot r).store.overflowHealth = w.store.overflowHealth := rfl
@[simp] theorem Work.emptyRecord_routes (w : Work) (t : Minute) (res : Option RawReading) (src : EmptiedBy) (slot : Nat) (r : BinRecord) : (w.emptyRecord t res src slot r).store.routes = w.store.routes := rfl
@[simp] theorem Work.emptyRecord_users (w : Work) (t : Minute) (res : Option RawReading) (src : EmptiedBy) (slot : Nat) (r : BinRecord) : (w.emptyRecord t res src slot r).users = w.users := rfl
@[simp] theorem Work.emptyRecord_deadlines (w : Work) (t : Minute) (res : Option RawReading) (src : EmptiedBy) (slot : Nat) (r : BinRecord) : (w.emptyRecord t res src slot r).deadlines = w.deadlines := rfl
@[simp] theorem Work.emptyRecord_condition (w : Work) (t : Minute) (res : Option RawReading) (src : EmptiedBy) (slot : Nat) (r : BinRecord) : (w.emptyRecord t res src slot r).condition = w.condition := rfl
@[simp] theorem Work.emptyRecord_counters (w : Work) (t : Minute) (res : Option RawReading) (src : EmptiedBy) (slot : Nat) (r : BinRecord) : (w.emptyRecord t res src slot r).counters = w.counters := rfl
@[simp] theorem Work.emptyRecord_active (w : Work) (t : Minute) (res : Option RawReading) (src : EmptiedBy) (slot : Nat) (r : BinRecord) : (w.emptyRecord t res src slot r).active = w.active := rfl
@[simp] theorem Work.emptyRecord_clock (w : Work) (t : Minute) (res : Option RawReading) (src : EmptiedBy) (slot : Nat) (r : BinRecord) : (w.emptyRecord t res src slot r).clock = w.clock := rfl
@[simp] theorem Work.emptyRecord_out (w : Work) (t : Minute) (res : Option RawReading) (src : EmptiedBy) (slot : Nat) (r : BinRecord) : (w.emptyRecord t res src slot r).out = w.out := rfl
@[simp] theorem Work.emptyRecord_halting (w : Work) (t : Minute) (res : Option RawReading) (src : EmptiedBy) (slot : Nat) (r : BinRecord) : (w.emptyRecord t res src slot r).halting = w.halting := rfl

/-! ### Operations under conditions: the fields they never write -/

@[simp] theorem listStep_ways (w : Work) (c : Bool) (slot : Nat) : (listStep c slot w).store.ways = w.store.ways := by
  simp only [listStep]; repeat' split
  all_goals simp
@[simp] theorem listStep_overflow (w : Work) (c : Bool) (slot : Nat) : (listStep c slot w).store.overflow = w.store.overflow := by
  simp only [listStep]; repeat' split
  all_goals simp
@[simp] theorem listStep_wayHealth (w : Work) (c : Bool) (slot : Nat) : (listStep c slot w).store.wayHealth = w.store.wayHealth := by
  simp only [listStep]; repeat' split
  all_goals simp
@[simp] theorem listStep_overflowHealth (w : Work) (c : Bool) (slot : Nat) : (listStep c slot w).store.overflowHealth = w.store.overflowHealth := by
  simp only [listStep]; repeat' split
  all_goals simp
@[simp] theorem listStep_routes (w : Work) (c : Bool) (slot : Nat) : (listStep c slot w).store.routes = w.store.routes := by
  simp only [listStep]; repeat' split
  all_goals simp
@[simp] theorem listStep_users (w : Work) (c : Bool) (slot : Nat) : (listStep c slot w).users = w.users := by
  simp only [listStep]; repeat' split
  all_goals simp
@[simp] theorem listStep_deadlines (w : Work) (c : Bool) (slot : Nat) : (listStep c slot w).deadlines = w.deadlines := by
  simp only [listStep]; repeat' split
  all_goals simp
@[simp] theorem listStep_condition (w : Work) (c : Bool) (slot : Nat) : (listStep c slot w).condition = w.condition := by
  simp only [listStep]; repeat' split
  all_goals simp
@[simp] theorem listStep_counters (w : Work) (c : Bool) (slot : Nat) : (listStep c slot w).counters = w.counters := by
  simp only [listStep]; repeat' split
  all_goals simp
@[simp] theorem listStep_active (w : Work) (c : Bool) (slot : Nat) : (listStep c slot w).active = w.active := by
  simp only [listStep]; repeat' split
  all_goals simp
@[simp] theorem listStep_clock (w : Work) (c : Bool) (slot : Nat) : (listStep c slot w).clock = w.clock := by
  simp only [listStep]; repeat' split
  all_goals simp
@[simp] theorem listStep_halting (w : Work) (c : Bool) (slot : Nat) : (listStep c slot w).halting = w.halting := by
  simp only [listStep]; repeat' split
  all_goals simp

@[simp] theorem Work.giveUrgent_slots (w : Work) (r : BinRecord) : (w.giveUrgent r).store.slots = w.store.slots := by
  simp only [Work.giveUrgent]; repeat' split
  all_goals simp
@[simp] theorem Work.giveUrgent_ways (w : Work) (r : BinRecord) : (w.giveUrgent r).store.ways = w.store.ways := by
  simp only [Work.giveUrgent]; repeat' split
  all_goals simp
@[simp] theorem Work.giveUrgent_overflow (w : Work) (r : BinRecord) : (w.giveUrgent r).store.overflow = w.store.overflow := by
  simp only [Work.giveUrgent]; repeat' split
  all_goals simp
@[simp] theorem Work.giveUrgent_wayHealth (w : Work) (r : BinRecord) : (w.giveUrgent r).store.wayHealth = w.store.wayHealth := by
  simp only [Work.giveUrgent]; repeat' split
  all_goals simp
@[simp] theorem Work.giveUrgent_overflowHealth (w : Work) (r : BinRecord) : (w.giveUrgent r).store.overflowHealth = w.store.overflowHealth := by
  simp only [Work.giveUrgent]; repeat' split
  all_goals simp
@[simp] theorem Work.giveUrgent_zones (w : Work) (r : BinRecord) : (w.giveUrgent r).store.zones = w.store.zones := by
  simp only [Work.giveUrgent]; repeat' split
  all_goals simp
@[simp] theorem Work.giveUrgent_routes (w : Work) (r : BinRecord) : (w.giveUrgent r).store.routes = w.store.routes := by
  simp only [Work.giveUrgent]; repeat' split
  all_goals simp
@[simp] theorem Work.giveUrgent_users (w : Work) (r : BinRecord) : (w.giveUrgent r).users = w.users := by
  simp only [Work.giveUrgent]; repeat' split
  all_goals simp
@[simp] theorem Work.giveUrgent_deadlines (w : Work) (r : BinRecord) : (w.giveUrgent r).deadlines = w.deadlines := by
  simp only [Work.giveUrgent]; repeat' split
  all_goals simp
@[simp] theorem Work.giveUrgent_condition (w : Work) (r : BinRecord) : (w.giveUrgent r).condition = w.condition := by
  simp only [Work.giveUrgent]; repeat' split
  all_goals simp
@[simp] theorem Work.giveUrgent_counters (w : Work) (r : BinRecord) : (w.giveUrgent r).counters = w.counters := by
  simp only [Work.giveUrgent]; repeat' split
  all_goals simp
@[simp] theorem Work.giveUrgent_active (w : Work) (r : BinRecord) : (w.giveUrgent r).active = w.active := by
  simp only [Work.giveUrgent]; repeat' split
  all_goals simp
@[simp] theorem Work.giveUrgent_clock (w : Work) (r : BinRecord) : (w.giveUrgent r).clock = w.clock := by
  simp only [Work.giveUrgent]; repeat' split
  all_goals simp
@[simp] theorem Work.giveUrgent_halting (w : Work) (r : BinRecord) : (w.giveUrgent r).halting = w.halting := by
  simp only [Work.giveUrgent]; repeat' split
  all_goals simp

@[simp] theorem urgentStep_ways (w : Work) (slot : Nat) : (urgentStep slot w).store.ways = w.store.ways := by
  simp only [urgentStep]; repeat' split
  all_goals simp
@[simp] theorem urgentStep_overflow (w : Work) (slot : Nat) : (urgentStep slot w).store.overflow = w.store.overflow := by
  simp only [urgentStep]; repeat' split
  all_goals simp
@[simp] theorem urgentStep_wayHealth (w : Work) (slot : Nat) : (urgentStep slot w).store.wayHealth = w.store.wayHealth := by
  simp only [urgentStep]; repeat' split
  all_goals simp
@[simp] theorem urgentStep_overflowHealth (w : Work) (slot : Nat) : (urgentStep slot w).store.overflowHealth = w.store.overflowHealth := by
  simp only [urgentStep]; repeat' split
  all_goals simp
@[simp] theorem urgentStep_routes (w : Work) (slot : Nat) : (urgentStep slot w).store.routes = w.store.routes := by
  simp only [urgentStep]; repeat' split
  all_goals simp
@[simp] theorem urgentStep_users (w : Work) (slot : Nat) : (urgentStep slot w).users = w.users := by
  simp only [urgentStep]; repeat' split
  all_goals simp
@[simp] theorem urgentStep_deadlines (w : Work) (slot : Nat) : (urgentStep slot w).deadlines = w.deadlines := by
  simp only [urgentStep]; repeat' split
  all_goals simp
@[simp] theorem urgentStep_condition (w : Work) (slot : Nat) : (urgentStep slot w).condition = w.condition := by
  simp only [urgentStep]; repeat' split
  all_goals simp
@[simp] theorem urgentStep_counters (w : Work) (slot : Nat) : (urgentStep slot w).counters = w.counters := by
  simp only [urgentStep]; repeat' split
  all_goals simp
@[simp] theorem urgentStep_active (w : Work) (slot : Nat) : (urgentStep slot w).active = w.active := by
  simp only [urgentStep]; repeat' split
  all_goals simp
@[simp] theorem urgentStep_clock (w : Work) (slot : Nat) : (urgentStep slot w).clock = w.clock := by
  simp only [urgentStep]; repeat' split
  all_goals simp
@[simp] theorem urgentStep_halting (w : Work) (slot : Nat) : (urgentStep slot w).halting = w.halting := by
  simp only [urgentStep]; repeat' split
  all_goals simp

@[simp] theorem bandStep_ways (w : Work) (slot : Nat) : (bandStep slot w).store.ways = w.store.ways := by
  simp only [bandStep]; repeat' split
  all_goals simp
@[simp] theorem bandStep_overflow (w : Work) (slot : Nat) : (bandStep slot w).store.overflow = w.store.overflow := by
  simp only [bandStep]; repeat' split
  all_goals simp
@[simp] theorem bandStep_wayHealth (w : Work) (slot : Nat) : (bandStep slot w).store.wayHealth = w.store.wayHealth := by
  simp only [bandStep]; repeat' split
  all_goals simp
@[simp] theorem bandStep_overflowHealth (w : Work) (slot : Nat) : (bandStep slot w).store.overflowHealth = w.store.overflowHealth := by
  simp only [bandStep]; repeat' split
  all_goals simp
@[simp] theorem bandStep_routes (w : Work) (slot : Nat) : (bandStep slot w).store.routes = w.store.routes := by
  simp only [bandStep]; repeat' split
  all_goals simp
@[simp] theorem bandStep_users (w : Work) (slot : Nat) : (bandStep slot w).users = w.users := by
  simp only [bandStep]; repeat' split
  all_goals simp
@[simp] theorem bandStep_deadlines (w : Work) (slot : Nat) : (bandStep slot w).deadlines = w.deadlines := by
  simp only [bandStep]; repeat' split
  all_goals simp
@[simp] theorem bandStep_condition (w : Work) (slot : Nat) : (bandStep slot w).condition = w.condition := by
  simp only [bandStep]; repeat' split
  all_goals simp
@[simp] theorem bandStep_counters (w : Work) (slot : Nat) : (bandStep slot w).counters = w.counters := by
  simp only [bandStep]; repeat' split
  all_goals simp
@[simp] theorem bandStep_active (w : Work) (slot : Nat) : (bandStep slot w).active = w.active := by
  simp only [bandStep]; repeat' split
  all_goals simp
@[simp] theorem bandStep_clock (w : Work) (slot : Nat) : (bandStep slot w).clock = w.clock := by
  simp only [bandStep]; repeat' split
  all_goals simp
@[simp] theorem bandStep_out (w : Work) (slot : Nat) : (bandStep slot w).out = w.out := by
  simp only [bandStep]; repeat' split
  all_goals simp
@[simp] theorem bandStep_halting (w : Work) (slot : Nat) : (bandStep slot w).halting = w.halting := by
  simp only [bandStep]; repeat' split
  all_goals simp

@[simp] theorem evaluate_ways (w : Work) (c : Bool) (slot : Nat) : (evaluate c slot w).store.ways = w.store.ways := by simp [evaluate]
@[simp] theorem evaluate_overflow (w : Work) (c : Bool) (slot : Nat) : (evaluate c slot w).store.overflow = w.store.overflow := by simp [evaluate]
@[simp] theorem evaluate_wayHealth (w : Work) (c : Bool) (slot : Nat) : (evaluate c slot w).store.wayHealth = w.store.wayHealth := by simp [evaluate]
@[simp] theorem evaluate_overflowHealth (w : Work) (c : Bool) (slot : Nat) : (evaluate c slot w).store.overflowHealth = w.store.overflowHealth := by simp [evaluate]
@[simp] theorem evaluate_routes (w : Work) (c : Bool) (slot : Nat) : (evaluate c slot w).store.routes = w.store.routes := by simp [evaluate]
@[simp] theorem evaluate_users (w : Work) (c : Bool) (slot : Nat) : (evaluate c slot w).users = w.users := by simp [evaluate]
@[simp] theorem evaluate_deadlines (w : Work) (c : Bool) (slot : Nat) : (evaluate c slot w).deadlines = w.deadlines := by simp [evaluate]
@[simp] theorem evaluate_condition (w : Work) (c : Bool) (slot : Nat) : (evaluate c slot w).condition = w.condition := by simp [evaluate]
@[simp] theorem evaluate_counters (w : Work) (c : Bool) (slot : Nat) : (evaluate c slot w).counters = w.counters := by simp [evaluate]
@[simp] theorem evaluate_active (w : Work) (c : Bool) (slot : Nat) : (evaluate c slot w).active = w.active := by simp [evaluate]
@[simp] theorem evaluate_clock (w : Work) (c : Bool) (slot : Nat) : (evaluate c slot w).clock = w.clock := by simp [evaluate]
@[simp] theorem evaluate_halting (w : Work) (c : Bool) (slot : Nat) : (evaluate c slot w).halting = w.halting := by simp [evaluate]

@[simp] theorem Work.endMember_slots (w : Work) (i : RouteIdx) (bin : BinNumber) (st : MemberState) : (w.endMember i bin st).store.slots = w.store.slots := by
  simp only [Work.endMember]; repeat' split
  all_goals simp
@[simp] theorem Work.endMember_ways (w : Work) (i : RouteIdx) (bin : BinNumber) (st : MemberState) : (w.endMember i bin st).store.ways = w.store.ways := by
  simp only [Work.endMember]; repeat' split
  all_goals simp
@[simp] theorem Work.endMember_overflow (w : Work) (i : RouteIdx) (bin : BinNumber) (st : MemberState) : (w.endMember i bin st).store.overflow = w.store.overflow := by
  simp only [Work.endMember]; repeat' split
  all_goals simp
@[simp] theorem Work.endMember_wayHealth (w : Work) (i : RouteIdx) (bin : BinNumber) (st : MemberState) : (w.endMember i bin st).store.wayHealth = w.store.wayHealth := by
  simp only [Work.endMember]; repeat' split
  all_goals simp
@[simp] theorem Work.endMember_overflowHealth (w : Work) (i : RouteIdx) (bin : BinNumber) (st : MemberState) : (w.endMember i bin st).store.overflowHealth = w.store.overflowHealth := by
  simp only [Work.endMember]; repeat' split
  all_goals simp
@[simp] theorem Work.endMember_zones (w : Work) (i : RouteIdx) (bin : BinNumber) (st : MemberState) : (w.endMember i bin st).store.zones = w.store.zones := by
  simp only [Work.endMember]; repeat' split
  all_goals simp
@[simp] theorem Work.endMember_users (w : Work) (i : RouteIdx) (bin : BinNumber) (st : MemberState) : (w.endMember i bin st).users = w.users := by
  simp only [Work.endMember]; repeat' split
  all_goals simp
@[simp] theorem Work.endMember_deadlines (w : Work) (i : RouteIdx) (bin : BinNumber) (st : MemberState) : (w.endMember i bin st).deadlines = w.deadlines := by
  simp only [Work.endMember]; repeat' split
  all_goals simp
@[simp] theorem Work.endMember_condition (w : Work) (i : RouteIdx) (bin : BinNumber) (st : MemberState) : (w.endMember i bin st).condition = w.condition := by
  simp only [Work.endMember]; repeat' split
  all_goals simp
@[simp] theorem Work.endMember_counters (w : Work) (i : RouteIdx) (bin : BinNumber) (st : MemberState) : (w.endMember i bin st).counters = w.counters := by
  simp only [Work.endMember]; repeat' split
  all_goals simp
@[simp] theorem Work.endMember_active (w : Work) (i : RouteIdx) (bin : BinNumber) (st : MemberState) : (w.endMember i bin st).active = w.active := by
  simp only [Work.endMember]; repeat' split
  all_goals simp
@[simp] theorem Work.endMember_clock (w : Work) (i : RouteIdx) (bin : BinNumber) (st : MemberState) : (w.endMember i bin st).clock = w.clock := by
  simp only [Work.endMember]; repeat' split
  all_goals simp
@[simp] theorem Work.endMember_out (w : Work) (i : RouteIdx) (bin : BinNumber) (st : MemberState) : (w.endMember i bin st).out = w.out := by
  simp only [Work.endMember]; repeat' split
  all_goals simp
@[simp] theorem Work.endMember_halting (w : Work) (i : RouteIdx) (bin : BinNumber) (st : MemberState) : (w.endMember i bin st).halting = w.halting := by
  simp only [Work.endMember]; repeat' split
  all_goals simp

@[simp] theorem Work.giveMember_slots (w : Work) (k : NoticeKind) (i : RouteIdx) (r : BinRecord) : (w.giveMember k i r).store.slots = w.store.slots := by
  simp only [Work.giveMember]; repeat' split
  all_goals simp
@[simp] theorem Work.giveMember_ways (w : Work) (k : NoticeKind) (i : RouteIdx) (r : BinRecord) : (w.giveMember k i r).store.ways = w.store.ways := by
  simp only [Work.giveMember]; repeat' split
  all_goals simp
@[simp] theorem Work.giveMember_overflow (w : Work) (k : NoticeKind) (i : RouteIdx) (r : BinRecord) : (w.giveMember k i r).store.overflow = w.store.overflow := by
  simp only [Work.giveMember]; repeat' split
  all_goals simp
@[simp] theorem Work.giveMember_wayHealth (w : Work) (k : NoticeKind) (i : RouteIdx) (r : BinRecord) : (w.giveMember k i r).store.wayHealth = w.store.wayHealth := by
  simp only [Work.giveMember]; repeat' split
  all_goals simp
@[simp] theorem Work.giveMember_overflowHealth (w : Work) (k : NoticeKind) (i : RouteIdx) (r : BinRecord) : (w.giveMember k i r).store.overflowHealth = w.store.overflowHealth := by
  simp only [Work.giveMember]; repeat' split
  all_goals simp
@[simp] theorem Work.giveMember_zones (w : Work) (k : NoticeKind) (i : RouteIdx) (r : BinRecord) : (w.giveMember k i r).store.zones = w.store.zones := by
  simp only [Work.giveMember]; repeat' split
  all_goals simp
@[simp] theorem Work.giveMember_routes (w : Work) (k : NoticeKind) (i : RouteIdx) (r : BinRecord) : (w.giveMember k i r).store.routes = w.store.routes := by
  simp only [Work.giveMember]; repeat' split
  all_goals simp
@[simp] theorem Work.giveMember_users (w : Work) (k : NoticeKind) (i : RouteIdx) (r : BinRecord) : (w.giveMember k i r).users = w.users := by
  simp only [Work.giveMember]; repeat' split
  all_goals simp
@[simp] theorem Work.giveMember_deadlines (w : Work) (k : NoticeKind) (i : RouteIdx) (r : BinRecord) : (w.giveMember k i r).deadlines = w.deadlines := by
  simp only [Work.giveMember]; repeat' split
  all_goals simp
@[simp] theorem Work.giveMember_condition (w : Work) (k : NoticeKind) (i : RouteIdx) (r : BinRecord) : (w.giveMember k i r).condition = w.condition := by
  simp only [Work.giveMember]; repeat' split
  all_goals simp
@[simp] theorem Work.giveMember_counters (w : Work) (k : NoticeKind) (i : RouteIdx) (r : BinRecord) : (w.giveMember k i r).counters = w.counters := by
  simp only [Work.giveMember]; repeat' split
  all_goals simp
@[simp] theorem Work.giveMember_active (w : Work) (k : NoticeKind) (i : RouteIdx) (r : BinRecord) : (w.giveMember k i r).active = w.active := by
  simp only [Work.giveMember]; repeat' split
  all_goals simp
@[simp] theorem Work.giveMember_clock (w : Work) (k : NoticeKind) (i : RouteIdx) (r : BinRecord) : (w.giveMember k i r).clock = w.clock := by
  simp only [Work.giveMember]; repeat' split
  all_goals simp
@[simp] theorem Work.giveMember_halting (w : Work) (k : NoticeKind) (i : RouteIdx) (r : BinRecord) : (w.giveMember k i r).halting = w.halting := by
  simp only [Work.giveMember]; repeat' split
  all_goals simp

@[simp] theorem Work.unclaim_ways (w : Work) (slot : Nat) : (w.unclaim slot).store.ways = w.store.ways := by
  simp only [Work.unclaim]; repeat' split
  all_goals simp
@[simp] theorem Work.unclaim_overflow (w : Work) (slot : Nat) : (w.unclaim slot).store.overflow = w.store.overflow := by
  simp only [Work.unclaim]; repeat' split
  all_goals simp
@[simp] theorem Work.unclaim_wayHealth (w : Work) (slot : Nat) : (w.unclaim slot).store.wayHealth = w.store.wayHealth := by
  simp only [Work.unclaim]; repeat' split
  all_goals simp
@[simp] theorem Work.unclaim_overflowHealth (w : Work) (slot : Nat) : (w.unclaim slot).store.overflowHealth = w.store.overflowHealth := by
  simp only [Work.unclaim]; repeat' split
  all_goals simp
@[simp] theorem Work.unclaim_routes (w : Work) (slot : Nat) : (w.unclaim slot).store.routes = w.store.routes := by
  simp only [Work.unclaim]; repeat' split
  all_goals simp
@[simp] theorem Work.unclaim_users (w : Work) (slot : Nat) : (w.unclaim slot).users = w.users := by
  simp only [Work.unclaim]; repeat' split
  all_goals simp
@[simp] theorem Work.unclaim_deadlines (w : Work) (slot : Nat) : (w.unclaim slot).deadlines = w.deadlines := by
  simp only [Work.unclaim]; repeat' split
  all_goals simp
@[simp] theorem Work.unclaim_condition (w : Work) (slot : Nat) : (w.unclaim slot).condition = w.condition := by
  simp only [Work.unclaim]; repeat' split
  all_goals simp
@[simp] theorem Work.unclaim_counters (w : Work) (slot : Nat) : (w.unclaim slot).counters = w.counters := by
  simp only [Work.unclaim]; repeat' split
  all_goals simp
@[simp] theorem Work.unclaim_active (w : Work) (slot : Nat) : (w.unclaim slot).active = w.active := by
  simp only [Work.unclaim]; repeat' split
  all_goals simp
@[simp] theorem Work.unclaim_clock (w : Work) (slot : Nat) : (w.unclaim slot).clock = w.clock := by
  simp only [Work.unclaim]; repeat' split
  all_goals simp
@[simp] theorem Work.unclaim_out (w : Work) (slot : Nat) : (w.unclaim slot).out = w.out := by
  simp only [Work.unclaim]; repeat' split
  all_goals simp
@[simp] theorem Work.unclaim_halting (w : Work) (slot : Nat) : (w.unclaim slot).halting = w.halting := by
  simp only [Work.unclaim]; repeat' split
  all_goals simp

@[simp] theorem Work.endRoute_slots (w : Work) (i : RouteIdx) (st : EndStatus) : (w.endRoute i st).store.slots = w.store.slots := by
  simp only [Work.endRoute]; repeat' split
  all_goals simp
@[simp] theorem Work.endRoute_ways (w : Work) (i : RouteIdx) (st : EndStatus) : (w.endRoute i st).store.ways = w.store.ways := by
  simp only [Work.endRoute]; repeat' split
  all_goals simp
@[simp] theorem Work.endRoute_overflow (w : Work) (i : RouteIdx) (st : EndStatus) : (w.endRoute i st).store.overflow = w.store.overflow := by
  simp only [Work.endRoute]; repeat' split
  all_goals simp
@[simp] theorem Work.endRoute_wayHealth (w : Work) (i : RouteIdx) (st : EndStatus) : (w.endRoute i st).store.wayHealth = w.store.wayHealth := by
  simp only [Work.endRoute]; repeat' split
  all_goals simp
@[simp] theorem Work.endRoute_overflowHealth (w : Work) (i : RouteIdx) (st : EndStatus) : (w.endRoute i st).store.overflowHealth = w.store.overflowHealth := by
  simp only [Work.endRoute]; repeat' split
  all_goals simp
@[simp] theorem Work.endRoute_zones (w : Work) (i : RouteIdx) (st : EndStatus) : (w.endRoute i st).store.zones = w.store.zones := by
  simp only [Work.endRoute]; repeat' split
  all_goals simp
@[simp] theorem Work.endRoute_users (w : Work) (i : RouteIdx) (st : EndStatus) : (w.endRoute i st).users = w.users := by
  simp only [Work.endRoute]; repeat' split
  all_goals simp
@[simp] theorem Work.endRoute_condition (w : Work) (i : RouteIdx) (st : EndStatus) : (w.endRoute i st).condition = w.condition := by
  simp only [Work.endRoute]; repeat' split
  all_goals simp
@[simp] theorem Work.endRoute_counters (w : Work) (i : RouteIdx) (st : EndStatus) : (w.endRoute i st).counters = w.counters := by
  simp only [Work.endRoute]; repeat' split
  all_goals simp
@[simp] theorem Work.endRoute_active (w : Work) (i : RouteIdx) (st : EndStatus) : (w.endRoute i st).active = w.active := by
  simp only [Work.endRoute]; repeat' split
  all_goals simp
@[simp] theorem Work.endRoute_clock (w : Work) (i : RouteIdx) (st : EndStatus) : (w.endRoute i st).clock = w.clock := by
  simp only [Work.endRoute]; repeat' split
  all_goals simp
@[simp] theorem Work.endRoute_halting (w : Work) (i : RouteIdx) (st : EndStatus) : (w.endRoute i st).halting = w.halting := by
  simp only [Work.endRoute]; repeat' split
  all_goals simp

@[simp] theorem Work.endIfDone_slots (w : Work) (i : RouteIdx) : (w.endIfDone i).store.slots = w.store.slots := by
  simp only [Work.endIfDone]; repeat' split
  all_goals simp
@[simp] theorem Work.endIfDone_ways (w : Work) (i : RouteIdx) : (w.endIfDone i).store.ways = w.store.ways := by
  simp only [Work.endIfDone]; repeat' split
  all_goals simp
@[simp] theorem Work.endIfDone_overflow (w : Work) (i : RouteIdx) : (w.endIfDone i).store.overflow = w.store.overflow := by
  simp only [Work.endIfDone]; repeat' split
  all_goals simp
@[simp] theorem Work.endIfDone_wayHealth (w : Work) (i : RouteIdx) : (w.endIfDone i).store.wayHealth = w.store.wayHealth := by
  simp only [Work.endIfDone]; repeat' split
  all_goals simp
@[simp] theorem Work.endIfDone_overflowHealth (w : Work) (i : RouteIdx) : (w.endIfDone i).store.overflowHealth = w.store.overflowHealth := by
  simp only [Work.endIfDone]; repeat' split
  all_goals simp
@[simp] theorem Work.endIfDone_zones (w : Work) (i : RouteIdx) : (w.endIfDone i).store.zones = w.store.zones := by
  simp only [Work.endIfDone]; repeat' split
  all_goals simp
@[simp] theorem Work.endIfDone_users (w : Work) (i : RouteIdx) : (w.endIfDone i).users = w.users := by
  simp only [Work.endIfDone]; repeat' split
  all_goals simp
@[simp] theorem Work.endIfDone_condition (w : Work) (i : RouteIdx) : (w.endIfDone i).condition = w.condition := by
  simp only [Work.endIfDone]; repeat' split
  all_goals simp
@[simp] theorem Work.endIfDone_counters (w : Work) (i : RouteIdx) : (w.endIfDone i).counters = w.counters := by
  simp only [Work.endIfDone]; repeat' split
  all_goals simp
@[simp] theorem Work.endIfDone_active (w : Work) (i : RouteIdx) : (w.endIfDone i).active = w.active := by
  simp only [Work.endIfDone]; repeat' split
  all_goals simp
@[simp] theorem Work.endIfDone_clock (w : Work) (i : RouteIdx) : (w.endIfDone i).clock = w.clock := by
  simp only [Work.endIfDone]; repeat' split
  all_goals simp
@[simp] theorem Work.endIfDone_halting (w : Work) (i : RouteIdx) : (w.endIfDone i).halting = w.halting := by
  simp only [Work.endIfDone]; repeat' split
  all_goals simp

@[simp] theorem Work.loseMember_ways (w : Work) (ends : Bool) (slot : Nat) : (w.loseMember ends slot).store.ways = w.store.ways := by
  simp only [Work.loseMember]; repeat' split
  all_goals simp
@[simp] theorem Work.loseMember_overflow (w : Work) (ends : Bool) (slot : Nat) : (w.loseMember ends slot).store.overflow = w.store.overflow := by
  simp only [Work.loseMember]; repeat' split
  all_goals simp
@[simp] theorem Work.loseMember_wayHealth (w : Work) (ends : Bool) (slot : Nat) : (w.loseMember ends slot).store.wayHealth = w.store.wayHealth := by
  simp only [Work.loseMember]; repeat' split
  all_goals simp
@[simp] theorem Work.loseMember_overflowHealth (w : Work) (ends : Bool) (slot : Nat) : (w.loseMember ends slot).store.overflowHealth = w.store.overflowHealth := by
  simp only [Work.loseMember]; repeat' split
  all_goals simp
@[simp] theorem Work.loseMember_users (w : Work) (ends : Bool) (slot : Nat) : (w.loseMember ends slot).users = w.users := by
  simp only [Work.loseMember]; repeat' split
  all_goals simp
@[simp] theorem Work.loseMember_condition (w : Work) (ends : Bool) (slot : Nat) : (w.loseMember ends slot).condition = w.condition := by
  simp only [Work.loseMember]; repeat' split
  all_goals simp
@[simp] theorem Work.loseMember_counters (w : Work) (ends : Bool) (slot : Nat) : (w.loseMember ends slot).counters = w.counters := by
  simp only [Work.loseMember]; repeat' split
  all_goals simp
@[simp] theorem Work.loseMember_active (w : Work) (ends : Bool) (slot : Nat) : (w.loseMember ends slot).active = w.active := by
  simp only [Work.loseMember]; repeat' split
  all_goals simp
@[simp] theorem Work.loseMember_clock (w : Work) (ends : Bool) (slot : Nat) : (w.loseMember ends slot).clock = w.clock := by
  simp only [Work.loseMember]; repeat' split
  all_goals simp
@[simp] theorem Work.loseMember_halting (w : Work) (ends : Bool) (slot : Nat) : (w.loseMember ends slot).halting = w.halting := by
  simp only [Work.loseMember]; repeat' split
  all_goals simp

@[simp] theorem Work.emptyReading_ways (w : Work) (slot : Nat) : (w.emptyReading slot).store.ways = w.store.ways := by
  simp only [Work.emptyReading]; repeat' split
  all_goals simp
@[simp] theorem Work.emptyReading_overflow (w : Work) (slot : Nat) : (w.emptyReading slot).store.overflow = w.store.overflow := by
  simp only [Work.emptyReading]; repeat' split
  all_goals simp
@[simp] theorem Work.emptyReading_wayHealth (w : Work) (slot : Nat) : (w.emptyReading slot).store.wayHealth = w.store.wayHealth := by
  simp only [Work.emptyReading]; repeat' split
  all_goals simp
@[simp] theorem Work.emptyReading_overflowHealth (w : Work) (slot : Nat) : (w.emptyReading slot).store.overflowHealth = w.store.overflowHealth := by
  simp only [Work.emptyReading]; repeat' split
  all_goals simp
@[simp] theorem Work.emptyReading_routes (w : Work) (slot : Nat) : (w.emptyReading slot).store.routes = w.store.routes := by
  simp only [Work.emptyReading]; repeat' split
  all_goals simp
@[simp] theorem Work.emptyReading_users (w : Work) (slot : Nat) : (w.emptyReading slot).users = w.users := by
  simp only [Work.emptyReading]; repeat' split
  all_goals simp
@[simp] theorem Work.emptyReading_deadlines (w : Work) (slot : Nat) : (w.emptyReading slot).deadlines = w.deadlines := by
  simp only [Work.emptyReading]; repeat' split
  all_goals simp
@[simp] theorem Work.emptyReading_condition (w : Work) (slot : Nat) : (w.emptyReading slot).condition = w.condition := by
  simp only [Work.emptyReading]; repeat' split
  all_goals simp
@[simp] theorem Work.emptyReading_counters (w : Work) (slot : Nat) : (w.emptyReading slot).counters = w.counters := by
  simp only [Work.emptyReading]; repeat' split
  all_goals simp
@[simp] theorem Work.emptyReading_active (w : Work) (slot : Nat) : (w.emptyReading slot).active = w.active := by
  simp only [Work.emptyReading]; repeat' split
  all_goals simp
@[simp] theorem Work.emptyReading_clock (w : Work) (slot : Nat) : (w.emptyReading slot).clock = w.clock := by
  simp only [Work.emptyReading]; repeat' split
  all_goals simp
@[simp] theorem Work.emptyReading_out (w : Work) (slot : Nat) : (w.emptyReading slot).out = w.out := by
  simp only [Work.emptyReading]; repeat' split
  all_goals simp
@[simp] theorem Work.emptyReading_halting (w : Work) (slot : Nat) : (w.emptyReading slot).halting = w.halting := by
  simp only [Work.emptyReading]; repeat' split
  all_goals simp

@[simp] theorem Work.givePoisoned_slots (w : Work) (slot : Nat) : (w.givePoisoned slot).store.slots = w.store.slots := by
  simp only [Work.givePoisoned]; repeat' split
  all_goals simp
@[simp] theorem Work.givePoisoned_ways (w : Work) (slot : Nat) : (w.givePoisoned slot).store.ways = w.store.ways := by
  simp only [Work.givePoisoned]; repeat' split
  all_goals simp
@[simp] theorem Work.givePoisoned_overflow (w : Work) (slot : Nat) : (w.givePoisoned slot).store.overflow = w.store.overflow := by
  simp only [Work.givePoisoned]; repeat' split
  all_goals simp
@[simp] theorem Work.givePoisoned_wayHealth (w : Work) (slot : Nat) : (w.givePoisoned slot).store.wayHealth = w.store.wayHealth := by
  simp only [Work.givePoisoned]; repeat' split
  all_goals simp
@[simp] theorem Work.givePoisoned_overflowHealth (w : Work) (slot : Nat) : (w.givePoisoned slot).store.overflowHealth = w.store.overflowHealth := by
  simp only [Work.givePoisoned]; repeat' split
  all_goals simp
@[simp] theorem Work.givePoisoned_zones (w : Work) (slot : Nat) : (w.givePoisoned slot).store.zones = w.store.zones := by
  simp only [Work.givePoisoned]; repeat' split
  all_goals simp
@[simp] theorem Work.givePoisoned_routes (w : Work) (slot : Nat) : (w.givePoisoned slot).store.routes = w.store.routes := by
  simp only [Work.givePoisoned]; repeat' split
  all_goals simp
@[simp] theorem Work.givePoisoned_users (w : Work) (slot : Nat) : (w.givePoisoned slot).users = w.users := by
  simp only [Work.givePoisoned]; repeat' split
  all_goals simp
@[simp] theorem Work.givePoisoned_deadlines (w : Work) (slot : Nat) : (w.givePoisoned slot).deadlines = w.deadlines := by
  simp only [Work.givePoisoned]; repeat' split
  all_goals simp
@[simp] theorem Work.givePoisoned_condition (w : Work) (slot : Nat) : (w.givePoisoned slot).condition = w.condition := by
  simp only [Work.givePoisoned]; repeat' split
  all_goals simp
@[simp] theorem Work.givePoisoned_counters (w : Work) (slot : Nat) : (w.givePoisoned slot).counters = w.counters := by
  simp only [Work.givePoisoned]; repeat' split
  all_goals simp
@[simp] theorem Work.givePoisoned_active (w : Work) (slot : Nat) : (w.givePoisoned slot).active = w.active := by
  simp only [Work.givePoisoned]; repeat' split
  all_goals simp
@[simp] theorem Work.givePoisoned_clock (w : Work) (slot : Nat) : (w.givePoisoned slot).clock = w.clock := by
  simp only [Work.givePoisoned]; repeat' split
  all_goals simp
@[simp] theorem Work.givePoisoned_halting (w : Work) (slot : Nat) : (w.givePoisoned slot).halting = w.halting := by
  simp only [Work.givePoisoned]; repeat' split
  all_goals simp

@[simp] theorem poison_ways (w : Work) (ends : Bool) (slot : Nat) : (poison ends slot w).store.ways = w.store.ways := by simp [poison]
@[simp] theorem poison_overflow (w : Work) (ends : Bool) (slot : Nat) : (poison ends slot w).store.overflow = w.store.overflow := by simp [poison]
@[simp] theorem poison_wayHealth (w : Work) (ends : Bool) (slot : Nat) : (poison ends slot w).store.wayHealth = w.store.wayHealth := by simp [poison]
@[simp] theorem poison_overflowHealth (w : Work) (ends : Bool) (slot : Nat) : (poison ends slot w).store.overflowHealth = w.store.overflowHealth := by simp [poison]
@[simp] theorem poison_users (w : Work) (ends : Bool) (slot : Nat) : (poison ends slot w).users = w.users := by simp [poison]
@[simp] theorem poison_condition (w : Work) (ends : Bool) (slot : Nat) : (poison ends slot w).condition = w.condition := by simp [poison]
@[simp] theorem poison_active (w : Work) (ends : Bool) (slot : Nat) : (poison ends slot w).active = w.active := by simp [poison]
@[simp] theorem poison_clock (w : Work) (ends : Bool) (slot : Nat) : (poison ends slot w).clock = w.clock := by simp [poison]
@[simp] theorem poison_halting (w : Work) (ends : Bool) (slot : Nat) : (poison ends slot w).halting = w.halting := by simp [poison]

@[simp] theorem Work.uncorrectable_slots (w : Work) : (w.uncorrectable).store.slots = w.store.slots := by
  simp only [Work.uncorrectable]; repeat' split
  all_goals simp
@[simp] theorem Work.uncorrectable_ways (w : Work) : (w.uncorrectable).store.ways = w.store.ways := by
  simp only [Work.uncorrectable]; repeat' split
  all_goals simp
@[simp] theorem Work.uncorrectable_overflow (w : Work) : (w.uncorrectable).store.overflow = w.store.overflow := by
  simp only [Work.uncorrectable]; repeat' split
  all_goals simp
@[simp] theorem Work.uncorrectable_wayHealth (w : Work) : (w.uncorrectable).store.wayHealth = w.store.wayHealth := by
  simp only [Work.uncorrectable]; repeat' split
  all_goals simp
@[simp] theorem Work.uncorrectable_overflowHealth (w : Work) : (w.uncorrectable).store.overflowHealth = w.store.overflowHealth := by
  simp only [Work.uncorrectable]; repeat' split
  all_goals simp
@[simp] theorem Work.uncorrectable_zones (w : Work) : (w.uncorrectable).store.zones = w.store.zones := by
  simp only [Work.uncorrectable]; repeat' split
  all_goals simp
@[simp] theorem Work.uncorrectable_routes (w : Work) : (w.uncorrectable).store.routes = w.store.routes := by
  simp only [Work.uncorrectable]; repeat' split
  all_goals simp
@[simp] theorem Work.uncorrectable_users (w : Work) : (w.uncorrectable).users = w.users := by
  simp only [Work.uncorrectable]; repeat' split
  all_goals simp
@[simp] theorem Work.uncorrectable_deadlines (w : Work) : (w.uncorrectable).deadlines = w.deadlines := by
  simp only [Work.uncorrectable]; repeat' split
  all_goals simp
@[simp] theorem Work.uncorrectable_active (w : Work) : (w.uncorrectable).active = w.active := by
  simp only [Work.uncorrectable]; repeat' split
  all_goals simp
@[simp] theorem Work.uncorrectable_clock (w : Work) : (w.uncorrectable).clock = w.clock := by
  simp only [Work.uncorrectable]; repeat' split
  all_goals simp
@[simp] theorem Work.uncorrectable_out (w : Work) : (w.uncorrectable).out = w.out := by
  simp only [Work.uncorrectable]; repeat' split
  all_goals simp

@[simp] theorem checkWay_slots (w : Work) (k : Nat) : (checkWay w k).store.slots = w.store.slots := by
  simp only [checkWay]; repeat' split
  all_goals simp
@[simp] theorem checkWay_ways (w : Work) (k : Nat) : (checkWay w k).store.ways = w.store.ways := by
  simp only [checkWay]; repeat' split
  all_goals simp
@[simp] theorem checkWay_overflow (w : Work) (k : Nat) : (checkWay w k).store.overflow = w.store.overflow := by
  simp only [checkWay]; repeat' split
  all_goals simp
@[simp] theorem checkWay_overflowHealth (w : Work) (k : Nat) : (checkWay w k).store.overflowHealth = w.store.overflowHealth := by
  simp only [checkWay]; repeat' split
  all_goals simp
@[simp] theorem checkWay_zones (w : Work) (k : Nat) : (checkWay w k).store.zones = w.store.zones := by
  simp only [checkWay]; repeat' split
  all_goals simp
@[simp] theorem checkWay_routes (w : Work) (k : Nat) : (checkWay w k).store.routes = w.store.routes := by
  simp only [checkWay]; repeat' split
  all_goals simp
@[simp] theorem checkWay_users (w : Work) (k : Nat) : (checkWay w k).users = w.users := by
  simp only [checkWay]; repeat' split
  all_goals simp
@[simp] theorem checkWay_deadlines (w : Work) (k : Nat) : (checkWay w k).deadlines = w.deadlines := by
  simp only [checkWay]; repeat' split
  all_goals simp
@[simp] theorem checkWay_active (w : Work) (k : Nat) : (checkWay w k).active = w.active := by
  simp only [checkWay]; repeat' split
  all_goals simp
@[simp] theorem checkWay_clock (w : Work) (k : Nat) : (checkWay w k).clock = w.clock := by
  simp only [checkWay]; repeat' split
  all_goals simp
@[simp] theorem checkWay_out (w : Work) (k : Nat) : (checkWay w k).out = w.out := by
  simp only [checkWay]; repeat' split
  all_goals simp

@[simp] theorem checkOverflow_slots (w : Work) (k : Nat) : (checkOverflow w k).store.slots = w.store.slots := by
  simp only [checkOverflow]; repeat' split
  all_goals simp
@[simp] theorem checkOverflow_ways (w : Work) (k : Nat) : (checkOverflow w k).store.ways = w.store.ways := by
  simp only [checkOverflow]; repeat' split
  all_goals simp
@[simp] theorem checkOverflow_overflow (w : Work) (k : Nat) : (checkOverflow w k).store.overflow = w.store.overflow := by
  simp only [checkOverflow]; repeat' split
  all_goals simp
@[simp] theorem checkOverflow_wayHealth (w : Work) (k : Nat) : (checkOverflow w k).store.wayHealth = w.store.wayHealth := by
  simp only [checkOverflow]; repeat' split
  all_goals simp
@[simp] theorem checkOverflow_zones (w : Work) (k : Nat) : (checkOverflow w k).store.zones = w.store.zones := by
  simp only [checkOverflow]; repeat' split
  all_goals simp
@[simp] theorem checkOverflow_routes (w : Work) (k : Nat) : (checkOverflow w k).store.routes = w.store.routes := by
  simp only [checkOverflow]; repeat' split
  all_goals simp
@[simp] theorem checkOverflow_users (w : Work) (k : Nat) : (checkOverflow w k).users = w.users := by
  simp only [checkOverflow]; repeat' split
  all_goals simp
@[simp] theorem checkOverflow_deadlines (w : Work) (k : Nat) : (checkOverflow w k).deadlines = w.deadlines := by
  simp only [checkOverflow]; repeat' split
  all_goals simp
@[simp] theorem checkOverflow_active (w : Work) (k : Nat) : (checkOverflow w k).active = w.active := by
  simp only [checkOverflow]; repeat' split
  all_goals simp
@[simp] theorem checkOverflow_clock (w : Work) (k : Nat) : (checkOverflow w k).clock = w.clock := by
  simp only [checkOverflow]; repeat' split
  all_goals simp
@[simp] theorem checkOverflow_out (w : Work) (k : Nat) : (checkOverflow w k).out = w.out := by
  simp only [checkOverflow]; repeat' split
  all_goals simp

@[simp] theorem checkKey_ways (w : Work) (slot : Nat) : (checkKey slot w).store.ways = w.store.ways := by
  simp only [checkKey]; repeat' split
  all_goals simp
@[simp] theorem checkKey_overflow (w : Work) (slot : Nat) : (checkKey slot w).store.overflow = w.store.overflow := by
  simp only [checkKey]; repeat' split
  all_goals simp
@[simp] theorem checkKey_wayHealth (w : Work) (slot : Nat) : (checkKey slot w).store.wayHealth = w.store.wayHealth := by
  simp only [checkKey]; repeat' split
  all_goals simp
@[simp] theorem checkKey_overflowHealth (w : Work) (slot : Nat) : (checkKey slot w).store.overflowHealth = w.store.overflowHealth := by
  simp only [checkKey]; repeat' split
  all_goals simp
@[simp] theorem checkKey_zones (w : Work) (slot : Nat) : (checkKey slot w).store.zones = w.store.zones := by
  simp only [checkKey]; repeat' split
  all_goals simp
@[simp] theorem checkKey_routes (w : Work) (slot : Nat) : (checkKey slot w).store.routes = w.store.routes := by
  simp only [checkKey]; repeat' split
  all_goals simp
@[simp] theorem checkKey_users (w : Work) (slot : Nat) : (checkKey slot w).users = w.users := by
  simp only [checkKey]; repeat' split
  all_goals simp
@[simp] theorem checkKey_deadlines (w : Work) (slot : Nat) : (checkKey slot w).deadlines = w.deadlines := by
  simp only [checkKey]; repeat' split
  all_goals simp
@[simp] theorem checkKey_active (w : Work) (slot : Nat) : (checkKey slot w).active = w.active := by
  simp only [checkKey]; repeat' split
  all_goals simp
@[simp] theorem checkKey_clock (w : Work) (slot : Nat) : (checkKey slot w).clock = w.clock := by
  simp only [checkKey]; repeat' split
  all_goals simp
@[simp] theorem checkKey_out (w : Work) (slot : Nat) : (checkKey slot w).out = w.out := by
  simp only [checkKey]; repeat' split
  all_goals simp

@[simp] theorem checkReading_ways (w : Work) (ends : Bool) (slot : Nat) : (checkReading ends slot w).store.ways = w.store.ways := by
  simp only [checkReading]; repeat' split
  all_goals simp
@[simp] theorem checkReading_overflow (w : Work) (ends : Bool) (slot : Nat) : (checkReading ends slot w).store.overflow = w.store.overflow := by
  simp only [checkReading]; repeat' split
  all_goals simp
@[simp] theorem checkReading_wayHealth (w : Work) (ends : Bool) (slot : Nat) : (checkReading ends slot w).store.wayHealth = w.store.wayHealth := by
  simp only [checkReading]; repeat' split
  all_goals simp
@[simp] theorem checkReading_overflowHealth (w : Work) (ends : Bool) (slot : Nat) : (checkReading ends slot w).store.overflowHealth = w.store.overflowHealth := by
  simp only [checkReading]; repeat' split
  all_goals simp
@[simp] theorem checkReading_users (w : Work) (ends : Bool) (slot : Nat) : (checkReading ends slot w).users = w.users := by
  simp only [checkReading]; repeat' split
  all_goals simp
@[simp] theorem checkReading_condition (w : Work) (ends : Bool) (slot : Nat) : (checkReading ends slot w).condition = w.condition := by
  simp only [checkReading]; repeat' split
  all_goals simp
@[simp] theorem checkReading_active (w : Work) (ends : Bool) (slot : Nat) : (checkReading ends slot w).active = w.active := by
  simp only [checkReading]; repeat' split
  all_goals simp
@[simp] theorem checkReading_clock (w : Work) (ends : Bool) (slot : Nat) : (checkReading ends slot w).clock = w.clock := by
  simp only [checkReading]; repeat' split
  all_goals simp
@[simp] theorem checkReading_halting (w : Work) (ends : Bool) (slot : Nat) : (checkReading ends slot w).halting = w.halting := by
  simp only [checkReading]; repeat' split
  all_goals simp

@[simp] theorem readGroups_ways (w : Work) (ends : Bool) (slot : Nat) : (readGroups ends slot w).store.ways = w.store.ways := by simp [readGroups]
@[simp] theorem readGroups_overflow (w : Work) (ends : Bool) (slot : Nat) : (readGroups ends slot w).store.overflow = w.store.overflow := by simp [readGroups]
@[simp] theorem readGroups_wayHealth (w : Work) (ends : Bool) (slot : Nat) : (readGroups ends slot w).store.wayHealth = w.store.wayHealth := by simp [readGroups]
@[simp] theorem readGroups_overflowHealth (w : Work) (ends : Bool) (slot : Nat) : (readGroups ends slot w).store.overflowHealth = w.store.overflowHealth := by simp [readGroups]
@[simp] theorem readGroups_users (w : Work) (ends : Bool) (slot : Nat) : (readGroups ends slot w).users = w.users := by simp [readGroups]
@[simp] theorem readGroups_active (w : Work) (ends : Bool) (slot : Nat) : (readGroups ends slot w).active = w.active := by simp [readGroups]
@[simp] theorem readGroups_clock (w : Work) (ends : Bool) (slot : Nat) : (readGroups ends slot w).clock = w.clock := by simp [readGroups]

@[simp] theorem Work.giveBatteryLow_slots (w : Work) (b : Bool) (slot : Nat) : (w.giveBatteryLow b slot).store.slots = w.store.slots := by
  simp only [Work.giveBatteryLow]; repeat' split
  all_goals simp
@[simp] theorem Work.giveBatteryLow_ways (w : Work) (b : Bool) (slot : Nat) : (w.giveBatteryLow b slot).store.ways = w.store.ways := by
  simp only [Work.giveBatteryLow]; repeat' split
  all_goals simp
@[simp] theorem Work.giveBatteryLow_overflow (w : Work) (b : Bool) (slot : Nat) : (w.giveBatteryLow b slot).store.overflow = w.store.overflow := by
  simp only [Work.giveBatteryLow]; repeat' split
  all_goals simp
@[simp] theorem Work.giveBatteryLow_wayHealth (w : Work) (b : Bool) (slot : Nat) : (w.giveBatteryLow b slot).store.wayHealth = w.store.wayHealth := by
  simp only [Work.giveBatteryLow]; repeat' split
  all_goals simp
@[simp] theorem Work.giveBatteryLow_overflowHealth (w : Work) (b : Bool) (slot : Nat) : (w.giveBatteryLow b slot).store.overflowHealth = w.store.overflowHealth := by
  simp only [Work.giveBatteryLow]; repeat' split
  all_goals simp
@[simp] theorem Work.giveBatteryLow_zones (w : Work) (b : Bool) (slot : Nat) : (w.giveBatteryLow b slot).store.zones = w.store.zones := by
  simp only [Work.giveBatteryLow]; repeat' split
  all_goals simp
@[simp] theorem Work.giveBatteryLow_routes (w : Work) (b : Bool) (slot : Nat) : (w.giveBatteryLow b slot).store.routes = w.store.routes := by
  simp only [Work.giveBatteryLow]; repeat' split
  all_goals simp
@[simp] theorem Work.giveBatteryLow_users (w : Work) (b : Bool) (slot : Nat) : (w.giveBatteryLow b slot).users = w.users := by
  simp only [Work.giveBatteryLow]; repeat' split
  all_goals simp
@[simp] theorem Work.giveBatteryLow_deadlines (w : Work) (b : Bool) (slot : Nat) : (w.giveBatteryLow b slot).deadlines = w.deadlines := by
  simp only [Work.giveBatteryLow]; repeat' split
  all_goals simp
@[simp] theorem Work.giveBatteryLow_condition (w : Work) (b : Bool) (slot : Nat) : (w.giveBatteryLow b slot).condition = w.condition := by
  simp only [Work.giveBatteryLow]; repeat' split
  all_goals simp
@[simp] theorem Work.giveBatteryLow_counters (w : Work) (b : Bool) (slot : Nat) : (w.giveBatteryLow b slot).counters = w.counters := by
  simp only [Work.giveBatteryLow]; repeat' split
  all_goals simp
@[simp] theorem Work.giveBatteryLow_active (w : Work) (b : Bool) (slot : Nat) : (w.giveBatteryLow b slot).active = w.active := by
  simp only [Work.giveBatteryLow]; repeat' split
  all_goals simp
@[simp] theorem Work.giveBatteryLow_clock (w : Work) (b : Bool) (slot : Nat) : (w.giveBatteryLow b slot).clock = w.clock := by
  simp only [Work.giveBatteryLow]; repeat' split
  all_goals simp
@[simp] theorem Work.giveBatteryLow_halting (w : Work) (b : Bool) (slot : Nat) : (w.giveBatteryLow b slot).halting = w.halting := by
  simp only [Work.giveBatteryLow]; repeat' split
  all_goals simp

@[simp] theorem Work.giveUnplanned_slots (w : Work) (slot : Nat) : (w.giveUnplanned slot).store.slots = w.store.slots := by
  simp only [Work.giveUnplanned]; repeat' split
  all_goals simp
@[simp] theorem Work.giveUnplanned_ways (w : Work) (slot : Nat) : (w.giveUnplanned slot).store.ways = w.store.ways := by
  simp only [Work.giveUnplanned]; repeat' split
  all_goals simp
@[simp] theorem Work.giveUnplanned_overflow (w : Work) (slot : Nat) : (w.giveUnplanned slot).store.overflow = w.store.overflow := by
  simp only [Work.giveUnplanned]; repeat' split
  all_goals simp
@[simp] theorem Work.giveUnplanned_wayHealth (w : Work) (slot : Nat) : (w.giveUnplanned slot).store.wayHealth = w.store.wayHealth := by
  simp only [Work.giveUnplanned]; repeat' split
  all_goals simp
@[simp] theorem Work.giveUnplanned_overflowHealth (w : Work) (slot : Nat) : (w.giveUnplanned slot).store.overflowHealth = w.store.overflowHealth := by
  simp only [Work.giveUnplanned]; repeat' split
  all_goals simp
@[simp] theorem Work.giveUnplanned_zones (w : Work) (slot : Nat) : (w.giveUnplanned slot).store.zones = w.store.zones := by
  simp only [Work.giveUnplanned]; repeat' split
  all_goals simp
@[simp] theorem Work.giveUnplanned_routes (w : Work) (slot : Nat) : (w.giveUnplanned slot).store.routes = w.store.routes := by
  simp only [Work.giveUnplanned]; repeat' split
  all_goals simp
@[simp] theorem Work.giveUnplanned_users (w : Work) (slot : Nat) : (w.giveUnplanned slot).users = w.users := by
  simp only [Work.giveUnplanned]; repeat' split
  all_goals simp
@[simp] theorem Work.giveUnplanned_deadlines (w : Work) (slot : Nat) : (w.giveUnplanned slot).deadlines = w.deadlines := by
  simp only [Work.giveUnplanned]; repeat' split
  all_goals simp
@[simp] theorem Work.giveUnplanned_condition (w : Work) (slot : Nat) : (w.giveUnplanned slot).condition = w.condition := by
  simp only [Work.giveUnplanned]; repeat' split
  all_goals simp
@[simp] theorem Work.giveUnplanned_counters (w : Work) (slot : Nat) : (w.giveUnplanned slot).counters = w.counters := by
  simp only [Work.giveUnplanned]; repeat' split
  all_goals simp
@[simp] theorem Work.giveUnplanned_active (w : Work) (slot : Nat) : (w.giveUnplanned slot).active = w.active := by
  simp only [Work.giveUnplanned]; repeat' split
  all_goals simp
@[simp] theorem Work.giveUnplanned_clock (w : Work) (slot : Nat) : (w.giveUnplanned slot).clock = w.clock := by
  simp only [Work.giveUnplanned]; repeat' split
  all_goals simp
@[simp] theorem Work.giveUnplanned_halting (w : Work) (slot : Nat) : (w.giveUnplanned slot).halting = w.halting := by
  simp only [Work.giveUnplanned]; repeat' split
  all_goals simp

@[simp] theorem Work.giveFaulted_slots (w : Work) (slot : Nat) : (w.giveFaulted slot).store.slots = w.store.slots := by
  simp only [Work.giveFaulted]; repeat' split
  all_goals simp
@[simp] theorem Work.giveFaulted_ways (w : Work) (slot : Nat) : (w.giveFaulted slot).store.ways = w.store.ways := by
  simp only [Work.giveFaulted]; repeat' split
  all_goals simp
@[simp] theorem Work.giveFaulted_overflow (w : Work) (slot : Nat) : (w.giveFaulted slot).store.overflow = w.store.overflow := by
  simp only [Work.giveFaulted]; repeat' split
  all_goals simp
@[simp] theorem Work.giveFaulted_wayHealth (w : Work) (slot : Nat) : (w.giveFaulted slot).store.wayHealth = w.store.wayHealth := by
  simp only [Work.giveFaulted]; repeat' split
  all_goals simp
@[simp] theorem Work.giveFaulted_overflowHealth (w : Work) (slot : Nat) : (w.giveFaulted slot).store.overflowHealth = w.store.overflowHealth := by
  simp only [Work.giveFaulted]; repeat' split
  all_goals simp
@[simp] theorem Work.giveFaulted_zones (w : Work) (slot : Nat) : (w.giveFaulted slot).store.zones = w.store.zones := by
  simp only [Work.giveFaulted]; repeat' split
  all_goals simp
@[simp] theorem Work.giveFaulted_routes (w : Work) (slot : Nat) : (w.giveFaulted slot).store.routes = w.store.routes := by
  simp only [Work.giveFaulted]; repeat' split
  all_goals simp
@[simp] theorem Work.giveFaulted_users (w : Work) (slot : Nat) : (w.giveFaulted slot).users = w.users := by
  simp only [Work.giveFaulted]; repeat' split
  all_goals simp
@[simp] theorem Work.giveFaulted_deadlines (w : Work) (slot : Nat) : (w.giveFaulted slot).deadlines = w.deadlines := by
  simp only [Work.giveFaulted]; repeat' split
  all_goals simp
@[simp] theorem Work.giveFaulted_condition (w : Work) (slot : Nat) : (w.giveFaulted slot).condition = w.condition := by
  simp only [Work.giveFaulted]; repeat' split
  all_goals simp
@[simp] theorem Work.giveFaulted_counters (w : Work) (slot : Nat) : (w.giveFaulted slot).counters = w.counters := by
  simp only [Work.giveFaulted]; repeat' split
  all_goals simp
@[simp] theorem Work.giveFaulted_active (w : Work) (slot : Nat) : (w.giveFaulted slot).active = w.active := by
  simp only [Work.giveFaulted]; repeat' split
  all_goals simp
@[simp] theorem Work.giveFaulted_clock (w : Work) (slot : Nat) : (w.giveFaulted slot).clock = w.clock := by
  simp only [Work.giveFaulted]; repeat' split
  all_goals simp
@[simp] theorem Work.giveFaulted_halting (w : Work) (slot : Nat) : (w.giveFaulted slot).halting = w.halting := by
  simp only [Work.giveFaulted]; repeat' split
  all_goals simp

@[simp] theorem Work.handOver_ways (w : Work) (i : RouteIdx) (t : Minute) (slot : Nat) : (w.handOver i t slot).store.ways = w.store.ways := by
  simp only [Work.handOver]; repeat' split
  all_goals simp
@[simp] theorem Work.handOver_overflow (w : Work) (i : RouteIdx) (t : Minute) (slot : Nat) : (w.handOver i t slot).store.overflow = w.store.overflow := by
  simp only [Work.handOver]; repeat' split
  all_goals simp
@[simp] theorem Work.handOver_wayHealth (w : Work) (i : RouteIdx) (t : Minute) (slot : Nat) : (w.handOver i t slot).store.wayHealth = w.store.wayHealth := by
  simp only [Work.handOver]; repeat' split
  all_goals simp
@[simp] theorem Work.handOver_overflowHealth (w : Work) (i : RouteIdx) (t : Minute) (slot : Nat) : (w.handOver i t slot).store.overflowHealth = w.store.overflowHealth := by
  simp only [Work.handOver]; repeat' split
  all_goals simp
@[simp] theorem Work.handOver_users (w : Work) (i : RouteIdx) (t : Minute) (slot : Nat) : (w.handOver i t slot).users = w.users := by
  simp only [Work.handOver]; repeat' split
  all_goals simp
@[simp] theorem Work.handOver_condition (w : Work) (i : RouteIdx) (t : Minute) (slot : Nat) : (w.handOver i t slot).condition = w.condition := by
  simp only [Work.handOver]; repeat' split
  all_goals simp
@[simp] theorem Work.handOver_counters (w : Work) (i : RouteIdx) (t : Minute) (slot : Nat) : (w.handOver i t slot).counters = w.counters := by
  simp only [Work.handOver]; repeat' split
  all_goals simp
@[simp] theorem Work.handOver_active (w : Work) (i : RouteIdx) (t : Minute) (slot : Nat) : (w.handOver i t slot).active = w.active := by
  simp only [Work.handOver]; repeat' split
  all_goals simp
@[simp] theorem Work.handOver_clock (w : Work) (i : RouteIdx) (t : Minute) (slot : Nat) : (w.handOver i t slot).clock = w.clock := by
  simp only [Work.handOver]; repeat' split
  all_goals simp
@[simp] theorem Work.handOver_halting (w : Work) (i : RouteIdx) (t : Minute) (slot : Nat) : (w.handOver i t slot).halting = w.halting := by
  simp only [Work.handOver]; repeat' split
  all_goals simp

@[simp] theorem foldl_checkWay_slots (l : List Nat) (w : Work) : (l.foldl checkWay w).store.slots = w.store.slots := by
  induction l generalizing w with
  | nil => rfl
  | cons k l ih => exact (ih (checkWay w k)).trans (checkWay_slots w k)
@[simp] theorem foldl_checkWay_ways (l : List Nat) (w : Work) : (l.foldl checkWay w).store.ways = w.store.ways := by
  induction l generalizing w with
  | nil => rfl
  | cons k l ih => exact (ih (checkWay w k)).trans (checkWay_ways w k)
@[simp] theorem foldl_checkWay_overflow (l : List Nat) (w : Work) : (l.foldl checkWay w).store.overflow = w.store.overflow := by
  induction l generalizing w with
  | nil => rfl
  | cons k l ih => exact (ih (checkWay w k)).trans (checkWay_overflow w k)
@[simp] theorem foldl_checkWay_overflowHealth (l : List Nat) (w : Work) : (l.foldl checkWay w).store.overflowHealth = w.store.overflowHealth := by
  induction l generalizing w with
  | nil => rfl
  | cons k l ih => exact (ih (checkWay w k)).trans (checkWay_overflowHealth w k)
@[simp] theorem foldl_checkWay_zones (l : List Nat) (w : Work) : (l.foldl checkWay w).store.zones = w.store.zones := by
  induction l generalizing w with
  | nil => rfl
  | cons k l ih => exact (ih (checkWay w k)).trans (checkWay_zones w k)
@[simp] theorem foldl_checkWay_routes (l : List Nat) (w : Work) : (l.foldl checkWay w).store.routes = w.store.routes := by
  induction l generalizing w with
  | nil => rfl
  | cons k l ih => exact (ih (checkWay w k)).trans (checkWay_routes w k)
@[simp] theorem foldl_checkWay_users (l : List Nat) (w : Work) : (l.foldl checkWay w).users = w.users := by
  induction l generalizing w with
  | nil => rfl
  | cons k l ih => exact (ih (checkWay w k)).trans (checkWay_users w k)
@[simp] theorem foldl_checkWay_deadlines (l : List Nat) (w : Work) : (l.foldl checkWay w).deadlines = w.deadlines := by
  induction l generalizing w with
  | nil => rfl
  | cons k l ih => exact (ih (checkWay w k)).trans (checkWay_deadlines w k)
@[simp] theorem foldl_checkWay_active (l : List Nat) (w : Work) : (l.foldl checkWay w).active = w.active := by
  induction l generalizing w with
  | nil => rfl
  | cons k l ih => exact (ih (checkWay w k)).trans (checkWay_active w k)
@[simp] theorem foldl_checkWay_clock (l : List Nat) (w : Work) : (l.foldl checkWay w).clock = w.clock := by
  induction l generalizing w with
  | nil => rfl
  | cons k l ih => exact (ih (checkWay w k)).trans (checkWay_clock w k)
@[simp] theorem foldl_checkWay_out (l : List Nat) (w : Work) : (l.foldl checkWay w).out = w.out := by
  induction l generalizing w with
  | nil => rfl
  | cons k l ih => exact (ih (checkWay w k)).trans (checkWay_out w k)

@[simp] theorem foldl_checkOverflow_slots (l : List Nat) (w : Work) : (l.foldl checkOverflow w).store.slots = w.store.slots := by
  induction l generalizing w with
  | nil => rfl
  | cons k l ih => exact (ih (checkOverflow w k)).trans (checkOverflow_slots w k)
@[simp] theorem foldl_checkOverflow_ways (l : List Nat) (w : Work) : (l.foldl checkOverflow w).store.ways = w.store.ways := by
  induction l generalizing w with
  | nil => rfl
  | cons k l ih => exact (ih (checkOverflow w k)).trans (checkOverflow_ways w k)
@[simp] theorem foldl_checkOverflow_overflow (l : List Nat) (w : Work) : (l.foldl checkOverflow w).store.overflow = w.store.overflow := by
  induction l generalizing w with
  | nil => rfl
  | cons k l ih => exact (ih (checkOverflow w k)).trans (checkOverflow_overflow w k)
@[simp] theorem foldl_checkOverflow_wayHealth (l : List Nat) (w : Work) : (l.foldl checkOverflow w).store.wayHealth = w.store.wayHealth := by
  induction l generalizing w with
  | nil => rfl
  | cons k l ih => exact (ih (checkOverflow w k)).trans (checkOverflow_wayHealth w k)
@[simp] theorem foldl_checkOverflow_zones (l : List Nat) (w : Work) : (l.foldl checkOverflow w).store.zones = w.store.zones := by
  induction l generalizing w with
  | nil => rfl
  | cons k l ih => exact (ih (checkOverflow w k)).trans (checkOverflow_zones w k)
@[simp] theorem foldl_checkOverflow_routes (l : List Nat) (w : Work) : (l.foldl checkOverflow w).store.routes = w.store.routes := by
  induction l generalizing w with
  | nil => rfl
  | cons k l ih => exact (ih (checkOverflow w k)).trans (checkOverflow_routes w k)
@[simp] theorem foldl_checkOverflow_users (l : List Nat) (w : Work) : (l.foldl checkOverflow w).users = w.users := by
  induction l generalizing w with
  | nil => rfl
  | cons k l ih => exact (ih (checkOverflow w k)).trans (checkOverflow_users w k)
@[simp] theorem foldl_checkOverflow_deadlines (l : List Nat) (w : Work) : (l.foldl checkOverflow w).deadlines = w.deadlines := by
  induction l generalizing w with
  | nil => rfl
  | cons k l ih => exact (ih (checkOverflow w k)).trans (checkOverflow_deadlines w k)
@[simp] theorem foldl_checkOverflow_active (l : List Nat) (w : Work) : (l.foldl checkOverflow w).active = w.active := by
  induction l generalizing w with
  | nil => rfl
  | cons k l ih => exact (ih (checkOverflow w k)).trans (checkOverflow_active w k)
@[simp] theorem foldl_checkOverflow_clock (l : List Nat) (w : Work) : (l.foldl checkOverflow w).clock = w.clock := by
  induction l generalizing w with
  | nil => rfl
  | cons k l ih => exact (ih (checkOverflow w k)).trans (checkOverflow_clock w k)
@[simp] theorem foldl_checkOverflow_out (l : List Nat) (w : Work) : (l.foldl checkOverflow w).out = w.out := by
  induction l generalizing w with
  | nil => rfl
  | cons k l ih => exact (ih (checkOverflow w k)).trans (checkOverflow_out w k)

end Sys2Proof.Machine
end

