-- ==== Sys2Proof/WellFormed.lean ====
section
/-! DEFINITION. Which commands are well formed. The operands' types hold most bounds (a channel is one of eight);
the one check left is that MARKER_IGNORED carries the byte that completes a request marker (R164(a), R165). -/

namespace Sys2Proof

/-- A well-formed command. -/
def Instr.wellFormed : Instr → Bool
  | .markerIgnored b => b == 0x92#8
  | .powerOn => true
  | .byteReceived _ _ => true
  | .fieldFrameComplete _ => true
  | .fieldLengthRefusal _ => true
  | .frameReplySent => true
  | .frameGapExpiry _ => true
  | .lineBreak _ _ => true
  | .requestFrameComplete _ => true
  | .requestLengthRefusal _ => true
  | .responseSent => true
  | .fillEntry => true
  | .emptiedEntry => true
  | .faultEntry => true
  | .register _ => true
  | .amend _ => true
  | .retire _ => true
  | .lookup _ => true
  | .stageProfile _ => true
  | .readProfile _ => true
  | .applyProfiles _ => true
  | .stageZone _ => true
  | .applyZone _ => true
  | .setZoneAttributes _ => true
  | .zoneSummary _ => true
  | .claim _ => true
  | .extend _ => true
  | .release _ => true
  | .confirm _ => true
  | .routeStatus _ => true
  | .zoneExport _ => true
  | .fetch _ => true
  | .abortExport _ => true
  | .watch _ => true
  | .unwatch _ => true
  | .setNoticeMask _ => true
  | .takeNotices _ => true
  | .channelReset _ => true
  | .start _ => true
  | .tableReset _ => true
  | .setClock _ => true
  | .setParameters _ => true
  | .status _ => true
  | .unknownRequestKind _ => true
  | .ageVisit => true
  | .rescanVisit => true
  | .recalVisit => true
  | .minuteAdvance => true
  | .ageIntervalPassed => true
  | .routeDeadlineDue => true
  | .exportIdleDue => true
  | .routeExpiry => true
  | .exportAbandoned => true

end Sys2Proof
end

