-- ==== Sys2Proof/Tests/Slice0.lean ====
section
/-! SUPPORT. Tests: the well-formedness check, a few computed values of the manual, and, for every statement with hypotheses, concrete states and
operands that meet them, clause by clause. -/

namespace Sys2Proof.Machine.Tests

-- Each test below is a kernel evaluation; run side by side they would take more threads than the check's memory limit allows.
set_option Elab.async false

/-! ### Well-formedness, decoding, and values the manual gives -/

theorem test_marker_ignored_needs_the_marker_byte : (Instr.markerIgnored 0x91#8).wellFormed = false := by decide
theorem test_marker_ignored_with_the_marker_byte : (Instr.markerIgnored 0x92#8).wellFormed = true := by decide
theorem test_no_word_spells_a_command : decodeTableWord 32 0 = none := by decide
theorem test_crc_check_value : crc16 [0x31, 0x32, 0x33, 0x34, 0x35, 0x36, 0x37, 0x38, 0x39] = 0x29B1#16 := by decide +kernel

/-! ### Small devices -/

/-- A usable litter profile: empty at 3,000, full at 600, silence limit 10. -/
def litterProfile : Profile := ⟨.litter, 3000, 600, 20, 60, 30, 10, 3⟩

/-- A litter record in slot order of the tests: zone 0, profile 0, LIVE, fill 90 at minute 3. -/
def liveRecord (bin : BinNumber) (claim : Option RouteIdx) : BinRecord :=
  { key := { bin := bin, kind := .litter, zone := 0, profile := 0, state := .live, claim := claim, ready := claim.isNone, urgent := false,
             band := some 9, registered := 1 }
    reading := { ReadingGroup.empty with fill := some ⟨90, 3⟩, lastRaw := some 840, reportTime := some 3 }
    keyHealth := .sound
    readingHealth := .sound }

/-- A POISONED record, unclaimed and empty. -/
def poisonedRecord (bin : BinNumber) : BinRecord :=
  { key := { bin := bin, kind := .litter, zone := 0, profile := 0, state := .poisoned, claim := none, ready := false, urgent := false,
             band := none, registered := 1 }
    reading := ReadingGroup.empty
    keyHealth := .sound
    readingHealth := .sound }

/-- Profiles 0 (usable, litter), 1 (not usable) and 2 (usable, glass). -/
def testProfiles : ProfileTable :=
  { active := vset (vset (vset (Vector.replicate 32 Profile.reset) 0 litterProfile) 2 { litterProfile with cls := .glass }) 3
      { litterProfile with fullRef := 2999, emptyRef := 3000 }
    staged := Vector.replicate 32 Profile.reset
    users := vset (Vector.replicate 32 0) 0 4 }

/-- The route of the tests: owner channel 1, tag 9, deadline 20, bins 6 and 8. -/
def testRoute : Route :=
  { owner := 1, tag := 9, created := 1, deadline := 20, members := [⟨6, 1, .pending⟩, ⟨8, 3, .pending⟩] }

/-- Bins 5 (slot 0, ready), 6 (slot 1, claimed by route 0), 7 (slot 2, POISONED) and 8 (slot 3, claimed by route 0). -/
def testStore : RecordStore :=
  { RecordStore.reset with
    slots := [(0, liveRecord 5 none), (1, liveRecord 6 (some 0)), (2, poisonedRecord 7), (3, liveRecord 8 (some 0))]
    ways := [(20, ⟨5, 0⟩), (24, ⟨6, 1⟩), (28, ⟨7, 2⟩), (32, ⟨8, 3⟩)]
    zones := vset (Vector.replicate 64 Zone.reset) 0 { Zone.reset with
      readyList := [0]
      counters := { ZoneCounters.zero with records := 4, readyMembers := 1, claimed := 2, bands := vset (Vector.replicate 10 0) 9 3 } }
    routes := vset (Vector.replicate 64 none) 0 (some testRoute) }

/-- The device of the tests in a condition, at minute 10; channel 2 has an export of one row open. -/
def device (c : Condition) : State :=
  { State.reset with
    store := testStore
    profiles := testProfiles
    expiry := { Expiry.reset with deadlines := vset (Vector.replicate 64 none) 0 (some 20) }
    exportUnit := { freeRows := 2047,
                    places := vset (Vector.replicate 8 none) 2 (some ⟨0, [exportRowOf 0 (liveRecord 5 none)], 4⟩) }
    clock := { minute := 10, divider := 0 }
    control := { State.reset.control with condition := c } }

/-- A request of a kind with a body. -/
def request (k : RequestKind) (body : List Byte) : Request := { tag := 1, kind := requestCode k, body := body }

/-- A grant read at minute 10 with all rows free. -/
def grant (p : ArbPos) : Grant := { pos := p, clock := 10, freeRows := 2048, staged := Vector.replicate 64 Zone.reset.staged }

/-- A device with a request at the head of a channel's queue and its position granted. -/
def asked (b : State) (k : RequestKind) (ch : Channel) (body : List Byte) : State :=
  { b with
    channels := vset b.channels ch { vget b.channels ch with queue := [request k body] }
    arbiter := { pointer := 0, store := .granted (grant (posOf ch)) } }

/-- A device granted to a position. -/
def granted (b : State) (p : ArbPos) : State := { b with arbiter := { pointer := 0, store := .granted (grant p) } }

theorem asked_head (b : State) (k : RequestKind) (ch : Channel) (body : List Byte) :
    ((asked b k ch body).chan ch).queue.head? = some (request k body) := by
  simp [asked, State.chan]

/-- A request that passes the common checks has its turn. -/
theorem asked_turn (b : State) (k : RequestKind) (ch : Channel) (body : List Byte) (h : b.settled = true)
    (hc : commonRefusal k ch body b.control.condition = none) : StoreTurn k ch (request k body) (grant (posOf ch)) (asked b k ch body) :=
  ⟨h, asked_head b k ch body, rfl, rfl, rfl, hc⟩

/-- A channel-local request that passes the common checks has its turn. -/
theorem asked_local (b : State) (k : RequestKind) (ch : Channel) (body : List Byte) (h : b.settled = true)
    (hc : commonRefusal k ch body b.control.condition = none) : LocalTurn k ch (request k body) (asked b k ch body) :=
  ⟨h, asked_head b k ch body, rfl, hc⟩

/-- A Walker without a job completes none. -/
theorem idle_goesOn {s : State} (h : s.walker.running = none) : ∀ t, JobGoesOn s t := fun _ _ hj => absurd (h.symm.trans hj) (by simp)

theorem device_settled (c : Condition) : (device c).settled = true := rfl
theorem device_rest (c : Condition) : (device c).walkerAtRest := ⟨rfl, rfl, rfl⟩
theorem testStore_sound : testStore.sound := by unfold RecordStore.sound; decide
theorem device_sound (c : Condition) : (device c).store.sound := testStore_sound

/-- What holds of every HELD route, shown entry by entry. -/
theorem all_routes {v : Vector (Option Route) 64} (p : Route → Bool) (h : ∀ j, (vget v j).all p = true) :
    ∀ j rt, vget v j = some rt → p rt = true := by
  intro j rt hj
  have := h j
  rw [hj] at this
  exact this

theorem locate_unknown : testStore.locate 9 = none := by decide +kernel
theorem holds_5 : testStore.holds 5 0 (liveRecord 5 none) := ⟨by decide +kernel, by decide +kernel⟩
theorem holds_6 : testStore.holds 6 1 (liveRecord 6 (some 0)) := ⟨by decide +kernel, by decide +kernel⟩
theorem holds_7 : testStore.holds 7 2 (poisonedRecord 7) := ⟨by decide +kernel, by decide +kernel⟩

/-- Table 4.4: the readings of profile 2 (empty 3,000, full 600). -/
theorem test_fills_of_a_litter_profile :
    [(10, 800), (10, 700), (10, 400), (10, 160), (10, 100), (8, 37)].map (fun p => computeFill litterProfile (normalise ⟨p.1, p.2⟩)) =
      [0, 8, 58, 98, 100, 100] := by decide +kernel

/-- The first worked example of Chapter 1: six bins of bucket 100. -/
theorem test_bins_of_one_bucket : ([100, 4197, 8294, 12391, 16480, 20577] : List BinNumber).map bucketOf = [100, 100, 100, 100, 100, 100] := by
  decide +kernel

/-! ### The queue of commands and the invariants -/

/-- The device at reset with a minute advance waiting. -/
def waiting : State := { State.reset with pending := [.minuteAdvance] }

theorem witness_StepRunsFrontCommand : waiting.pending = .minuteAdvance :: [] := rfl

/-- An idle device at the divider's last value, before and at the clock's greatest value, and below it. -/
theorem witness_IdleStepIsOnePeriod :
    (State.reset.pending = [] ∧ State.reset.settled = true) ∧
    (∃ s : State, s.pending = [] ∧ s.settled = true ∧ s.clock = ⟨7, 1966079⟩) ∧
    ∃ s : State, s.pending = [] ∧ s.settled = true ∧ s.clock = ⟨0xFFFFFFFF#32, 1966079⟩ :=
  ⟨⟨rfl, rfl⟩, ⟨{ State.reset with clock := ⟨7, 1966079⟩ }, rfl, rfl, rfl⟩,
    { State.reset with clock := ⟨0xFFFFFFFF#32, 1966079⟩ }, rfl, rfl, rfl⟩

/-- A store of one record, a ready member of zone 0. -/
def readyStore : RecordStore :=
  { RecordStore.reset with
    slots := [(0, liveRecord 5 none)]
    ways := [(20, ⟨5, 0⟩)]
    zones := vset (Vector.replicate 64 Zone.reset) 0 { Zone.reset with
      readyList := [0], counters := { ZoneCounters.zero with records := 1, readyMembers := 1 } } }

/-- A store whose one ready member stands in slot 0, of zone 0, and whose other zones' lists are empty, has its ready lists in order. -/
theorem inOrder_of_one (st : RecordStore) (hl : (vget st.zones 0).readyList = [0]) (hc : (vget st.zones 0).counters.readyMembers = 1)
    (ho : ∀ z : ZoneNo, z ≠ 0 → (vget st.zones z).readyList = [] ∧ (vget st.zones z).counters.readyMembers = 0)
    (h0 : ∃ r f, sfind 0 st.slots = some r ∧ r.key.zone = 0 ∧ r.key.ready = true ∧ r.reading.fill = some f)
    (hr : ∀ x ∈ st.slots, x.2.key.ready = true → x.1 = 0) : st.readyInOrder := by
  obtain ⟨r0, f0, hf, hz0, hr0, hfill⟩ := h0
  intro z
  by_cases hz : z = 0
  · subst hz
    rw [hl, hc]
    refine ⟨by decide, fun n => ⟨fun h => ?_, ?_⟩, fun n h => ?_, by simp, rfl⟩
    · cases List.mem_singleton.1 h
      exact ⟨r0, hf, hz0, hr0⟩
    · rintro ⟨r, hn, -, hrd⟩
      exact List.mem_singleton.2 (hr _ (mem_of_sfind hn) hrd)
    · cases List.mem_singleton.1 h
      exact ⟨r0, f0, hf, hfill⟩
  · rw [(ho z hz).1, (ho z hz).2]
    refine ⟨by decide, fun n => ⟨fun h => absurd h (by simp), ?_⟩, fun n h => absurd h (by simp), by simp, rfl⟩
    rintro ⟨r, hn, hrz, hrd⟩
    have h0' := hr _ (mem_of_sfind hn) hrd
    simp only at h0'
    subst h0'
    rw [hf] at hn
    cases hn
    exact absurd (hrz.symm.trans hz0) hz

theorem readyStore_inOrder : readyStore.readyInOrder :=
  inOrder_of_one readyStore (by decide +kernel) (by decide +kernel) (by decide +kernel) ⟨_, _, rfl, rfl, rfl, rfl⟩ (by decide)

theorem zone0_list : (vget testStore.zones 0).readyList = [0] := by decide +kernel
theorem zone0_members : (vget testStore.zones 0).counters.readyMembers = 1 := by decide +kernel
theorem other_zones : ∀ z : ZoneNo, z ≠ 0 → (vget testStore.zones z).readyList = [] ∧ (vget testStore.zones z).counters.readyMembers = 0 := by
  decide +kernel

theorem testStore_inOrder : testStore.readyInOrder :=
  inOrder_of_one testStore zone0_list zone0_members other_zones ⟨_, _, rfl, rfl, rfl, rfl⟩ (by decide)

theorem testStore_ordered : testStore.ordered := by unfold RecordStore.ordered Ordered; decide +kernel

theorem member_6 : ⟨6, 1, .pending⟩ ∈ testRoute.members := by simp [testRoute]

theorem free_1 : vget testStore.routes 1 = none := by decide +kernel

theorem held_0 : vget testStore.routes 0 = some testRoute := by decide +kernel

/-- The one HELD route of the tests' store. -/
theorem only_route {i : RouteIdx} {rt : Route} (h : vget testStore.routes i = some rt) : i = 0 ∧ rt = testRoute := by
  have hr := all_routes (v := testStore.routes) (fun rt => rt == testRoute) (by decide +kernel) i rt h
  have hn : ∀ j : RouteIdx, j ≠ 0 → (vget testStore.routes j).isNone = true := by decide +kernel
  refine ⟨?_, eq_of_beq hr⟩
  by_contra hi
  have := hn i hi
  rw [h] at this
  exact absurd this (by simp)

/-- The records of the tests' store. -/
theorem testStore_slots {slot : Nat} {r : BinRecord} (h : sfind slot testStore.slots = some r) :
    (slot = 0 ∧ r = liveRecord 5 none) ∨ (slot = 1 ∧ r = liveRecord 6 (some 0)) ∨ (slot = 2 ∧ r = poisonedRecord 7) ∨
      (slot = 3 ∧ r = liveRecord 8 (some 0)) := by
  simpa [testStore] using mem_of_sfind h

theorem liveRecord_related (b : BinNumber) (c : Option RouteIdx) : (liveRecord b c).related where
  lastRaw := fun _ => rfl
  percent := fun f hf => by cases hf; decide
  emptied := fun u hu => by cases hu
  fault := by simp [liveRecord, ReadingGroup.empty]
  ready := fun h => ⟨by cases c <;> simp_all [liveRecord], Or.inl rfl, rfl⟩
  urgent := fun _ => rfl
  band := by simp [liveRecord, bandTest, bandOfFill]
  poisoned := fun h => by cases h

theorem poisonedRecord_related (b : BinNumber) : (poisonedRecord b).related where
  lastRaw := fun h => by cases h
  percent := fun f hf => by cases hf
  emptied := fun u hu => by cases hu
  fault := by simp [poisonedRecord, ReadingGroup.empty]
  ready := fun h => by cases h
  urgent := fun h => by cases h
  band := rfl
  poisoned := fun _ => ⟨rfl, rfl, rfl, rfl, rfl⟩

theorem testStore_fields : testStore.fieldsRelated := by
  intro slot r h
  rcases testStore_slots h with ⟨-, rfl⟩ | ⟨-, rfl⟩ | ⟨-, rfl⟩ | ⟨-, rfl⟩
  · exact liveRecord_related _ _
  · exact liveRecord_related _ _
  · exact poisonedRecord_related _
  · exact liveRecord_related _ _

theorem testStore_index : testStore.indexAgrees := by unfold RecordStore.indexAgrees; decide +kernel

theorem testStore_claims : testStore.claimsAgree := by
  refine ⟨fun i rt h => ?_, fun i j rt ru hi hj _ _ => (only_route hi).1.trans (only_route hj).1.symm, fun slot r i h hc => ?_⟩
  · obtain ⟨rfl, rfl⟩ := only_route h
    refine ⟨by decide, by decide, fun m hm _ => ?_⟩
    simp only [testRoute, List.mem_cons, List.not_mem_nil, or_false] at hm
    rcases hm with rfl | rfl
    · exact ⟨liveRecord 6 (some 0), by decide +kernel, rfl, rfl⟩
    · exact ⟨liveRecord 8 (some 0), by decide +kernel, rfl, rfl⟩
  · rcases testStore_slots h with ⟨-, rfl⟩ | ⟨rfl, rfl⟩ | ⟨-, rfl⟩ | ⟨rfl, rfl⟩
    · cases hc
    · cases hc
      exact ⟨testRoute, held_0, by decide⟩
    · cases hc
    · cases hc
      exact ⟨testRoute, held_0, by decide⟩

theorem device_counts (c : Condition) : (device c).countsAgree :=
  (by unfold State.countsAgree; decide +kernel : (device .running).countsAgree)

theorem device_counters (c : Condition) : (device c).countersAgree :=
  (by unfold State.countersAgree; decide +kernel : (device .running).countersAgree)

/-- The device of the tests has its tables in order. -/
theorem device_tables (c : Condition) : (device c).tablesInOrder :=
  ⟨testStore_ordered, testStore_index, testStore_claims, testStore_fields, device_counts c, device_counters c, testStore_inOrder⟩

/-- The record of a bin with the health of its groups changed. -/
def ailing (bin : BinNumber) (claim : Option RouteIdx) (k h : Health) : BinRecord := { liveRecord bin claim with keyHealth := k, readingHealth := h }

/-- The tests' store with the health of the ready record in slot 0 and of the claimed record in slot 1 changed. -/
def ailingStore (k h : Health) : RecordStore :=
  { testStore with slots := [(0, ailing 5 none k h), (1, ailing 6 (some 0) k h), (2, poisonedRecord 7), (3, liveRecord 8 (some 0))] }

/-- The device of the tests with that store. -/
def ailingDevice (c : Condition) (k h : Health) : State := { device c with store := ailingStore k h }

theorem ailingStore_slots {k h : Health} {slot : Nat} {r : BinRecord} (hr : sfind slot (ailingStore k h).slots = some r) :
    (slot = 0 ∧ r = ailing 5 none k h) ∨ (slot = 1 ∧ r = ailing 6 (some 0) k h) ∨ (slot = 2 ∧ r = poisonedRecord 7) ∨
      (slot = 3 ∧ r = liveRecord 8 (some 0)) := by
  simpa [ailingStore] using mem_of_sfind hr

/-- The relations of a record's fields do not speak of its health. -/
theorem ailing_related (b : BinNumber) (c : Option RouteIdx) (k h : Health) : (ailing b c k h).related := by
  obtain ⟨h1, h2, h3, h4, h5, h6, h7, h8⟩ := liveRecord_related b c
  exact ⟨h1, h2, h3, h4, h5, h6, h7, h8⟩

theorem ailing_claims (k h : Health) : (ailingStore k h).claimsAgree := by
  refine ⟨fun i rt hi => ?_, fun i j rt ru hi hj _ _ => (only_route hi).1.trans (only_route hj).1.symm, fun slot r i hs hc => ?_⟩
  · obtain ⟨rfl, rfl⟩ := only_route hi
    refine ⟨by decide, by decide, fun m hm _ => ?_⟩
    simp only [testRoute, List.mem_cons, List.not_mem_nil, or_false] at hm
    rcases hm with rfl | rfl
    · exact ⟨ailing 6 (some 0) k h, rfl, rfl, rfl⟩
    · exact ⟨liveRecord 8 (some 0), rfl, rfl, rfl⟩
  · rcases ailingStore_slots hs with ⟨-, rfl⟩ | ⟨rfl, rfl⟩ | ⟨-, rfl⟩ | ⟨rfl, rfl⟩
    · cases hc
    · cases hc
      exact ⟨testRoute, held_0, member_6⟩
    · cases hc
    · cases hc
      exact ⟨testRoute, held_0, by decide⟩

/-- Damage leaves the tables in order. -/
theorem ailing_tables (c : Condition) (k h : Health) : (ailingDevice c k h).tablesInOrder where
  ordered := ⟨⟨by simp [ailingDevice, ailingStore], by simp [ailingDevice, ailingStore, Config.nSlots]⟩, testStore_ordered.2⟩
  index := testStore_index
  claims := ailing_claims k h
  fields := fun slot r hr => by
    rcases ailingStore_slots hr with ⟨-, rfl⟩ | ⟨-, rfl⟩ | ⟨-, rfl⟩ | ⟨-, rfl⟩
    · exact ailing_related _ _ _ _
    · exact ailing_related _ _ _ _
    · exact poisonedRecord_related _
    · exact liveRecord_related _ _
  counts := device_counts c
  counters := device_counters c
  ready := inOrder_of_one (ailingStore k h) zone0_list zone0_members other_zones ⟨_, _, rfl, rfl, rfl, rfl⟩
    (by simp [ailingStore, ailing, liveRecord, poisonedRecord])

/-- Every key group of a store free of error can be read. -/
theorem device_keys (slots : List Nat) : testStore.keysReadable slots := keysReadable_of_sound testStore_sound slots

/-- No damage is beyond correction while that of slots 0 and 1 is not. -/
theorem ailing_keys {k : Health} (hk : k ≠ .double) (h : Health) (slots : List Nat) : (ailingStore k h).keysReadable slots := by
  intro n _ r hr
  rcases ailingStore_slots hr with ⟨-, rfl⟩ | ⟨-, rfl⟩ | ⟨-, rfl⟩ | ⟨-, rfl⟩
  · exact hk
  · exact hk
  · exact nofun
  · exact nofun

/-- The record in slot 3 can be read. -/
theorem ailing_key_3 (k h : Health) : (ailingStore k h).keysReadable [3] := by
  intro n hn r hr
  cases List.mem_singleton.1 hn
  cases hr
  exact nofun

/-- A request that waits leaves the tables in order. -/
theorem tables_asked {b : State} (h : b.tablesInOrder) (k : RequestKind) (ch : Channel) (body : List Byte) :
    (asked b k ch body).tablesInOrder := ⟨h.ordered, h.index, h.claims, h.fields, h.counts, h.counters, h.ready⟩

/-- Channel 0 resets channel 1 under its grant, while a fifth request stands in channel 1's queue. -/
def crowded : State :=
  { asked (device .running) .channelReset 0 [1] with
    channels := vset (vset (Vector.replicate 8 ChannelState.reset) 0 { ChannelState.reset with queue := [request .channelReset [1]] }) 1
      { ChannelState.reset with queue := List.replicate 5 (request .status []) }
    pending := [.channelReset 0] }

theorem witness_QueuesAndCountsStayBounded :
    (∃ t, waiting.bounded ∧ waiting.inRange ∧ step waiting = .next t) ∧
    ∃ t, crowded.bounded ∧ (crowded.chan 1).queue.length = 5 ∧ crowded.purging 1 = true ∧ step crowded = .next t :=
  ⟨⟨_, by unfold State.bounded; decide +kernel, by unfold State.inRange; decide +kernel, rfl⟩,
    _, by unfold State.bounded; decide +kernel, by decide +kernel, by decide +kernel, rfl⟩

theorem witness_NoticeQueuesStayInOrder : ∃ t, waiting.noticesInOrder ∧ step waiting = .next t :=
  ⟨_, by unfold State.noticesInOrder ChannelState.noticesInOrder; decide +kernel, rfl⟩

/-- The device with the health of the record in slot 1 changed. -/
def hurt (c : Condition) (k r : Health) : State :=
  { device c with store := { testStore with
      slots := [(0, liveRecord 5 none), (1, { liveRecord 6 (some 0) with keyHealth := k, readingHealth := r })] } }

/-- The device with the way of bin 6 damaged beyond correction. -/
def hurtWay (c : Condition) : State := { device c with store := { testStore with wayHealth := [(24, .double)] } }

theorem witness_HaltedAndConfigStayQuiet :
    (∃ t, waiting.haltInOrder ∧ waiting.configEmpty ∧ step waiting = .next t) ∧
    (∃ s t, s.haltInOrder ∧ s.control.condition = .halted ∧ step s = .next t) ∧
    (∃ g s t, s.settled = true ∧ s.arbiter.store = .granted g ∧ s.control.condition ≠ .halted ∧
      exec (commandOf .lookup 7) s = .next t ∧ t.control.condition = .halted ∧ (s.chan 7).queue.head? = some (request .lookup [0, 0, 0, 6])) ∧
    ∃ e g s t, s.settled = true ∧ s.arbiter.store = .granted g ∧ s.control.condition ≠ .halted ∧
      exec (entryCommand e) s = .next t ∧ t.control.condition = .halted :=
  ⟨⟨_, by unfold State.haltInOrder; decide +kernel, by unfold State.configEmpty; decide +kernel, rfl⟩,
    ⟨{ waiting with control := { waiting.control with condition := .halted, haltLine := true } }, _,
      by unfold State.haltInOrder; decide +kernel, rfl, rfl⟩,
    ⟨grant 8, asked (hurt .config .double .sound) .lookup 7 [0, 0, 0, 6], _, rfl, rfl, by decide, rfl, by decide +kernel,
      asked_head _ _ _ _⟩,
    ⟨6, 5, .fault 1 1, 3⟩, grant 0, granted { hurtWay .running with updateQueue := [⟨6, 5, .fault 1 1, 3⟩] } 0, _, rfl, rfl, by decide, rfl,
      by decide +kernel⟩

theorem witness_ExportRowsStayBalanced :
    ∃ s t, s.rowsBalance ∧ rowsOf (s.place 2) ≠ [] ∧ s.pending = [.minuteAdvance] ∧ step s = .next t :=
  ⟨{ device .running with pending := [.minuteAdvance] }, _,
    ⟨by decide +kernel, by decide +kernel, trivial⟩, by decide +kernel, rfl, rfl⟩

/-- The device of the tests with a minute advance waiting keeps its tables in order. -/
theorem advancing_tables : ({ device .running with pending := [.minuteAdvance] } : State).tablesInOrder :=
  let h := device_tables .running
  ⟨h.ordered, h.index, h.claims, h.fields, h.counts, h.counters, h.ready⟩

theorem witness_TablesStayOrdered : ∃ s t, s.store.ordered ∧ s.tablesInOrder ∧ s.store = testStore ∧ step s = .next t :=
  ⟨{ device .running with pending := [.minuteAdvance] }, _, testStore_ordered, advancing_tables, rfl, rfl⟩

theorem witness_DeadlineCopiesFollowRoutes :
    (∃ s t, s.deadlinesFollow ∧ s.tablesInOrder ∧ s.store = testStore ∧ step s = .next t) ∧
    ∃ s t, s.expiry.dueList.Nodup ∧ s.expiry.dueList = [.zoneExport 2, .route 0] ∧ step s = .next t :=
  ⟨⟨{ device .running with pending := [.minuteAdvance] }, _, by unfold State.deadlinesFollow; decide +kernel, advancing_tables, rfl, rfl⟩,
    { device .running with
      pending := [.minuteAdvance], expiry := { (device .running).expiry with dueList := [.zoneExport 2, .route 0] } }, _, by decide, rfl, rfl⟩

theorem witness_WalkerStaysAtRest : ∃ s t, s.walkerAtRest ∧ s.walker.running = some ⟨.age, none⟩ ∧ step s = .next t :=
  ⟨{ device .running with pending := [.minuteAdvance], walker := { Walker.reset with running := some ⟨.age, none⟩ } }, _, rfl, rfl, rfl⟩

theorem witness_CountsStayInAgreement : ∃ s t, s.store.ordered ∧ s.countsAgree ∧ s.tablesInOrder ∧ s.store = testStore ∧ step s = .next t :=
  ⟨{ device .running with pending := [.minuteAdvance] }, _, testStore_ordered, advancing_tables.counts, advancing_tables, rfl, rfl⟩

theorem witness_ReadyListsStayInUrgencyOrder : ∃ s t, s.store.ordered ∧ s.store.readyInOrder ∧ s.store = readyStore ∧ step s = .next t :=
  ⟨{ device .running with pending := [.minuteAdvance], store := readyStore }, _,
    by unfold RecordStore.ordered Ordered; decide +kernel, readyStore_inOrder, rfl, rfl⟩

/-! ### The links -/

/-- A device with the field receiver, or the planner receiver, in a given state. -/
def receiving (l : Link) (r : Receiver) : State := State.setRx l r (device .running)

def huntingCandidate : Receiver := { Receiver.idle with candidate := true, gap := some 20 }
def inHeader (len : List Byte) : Receiver := { Receiver.idle with state := .header, len := len, gap := some 20 }
def inCheck (len body crc : List Byte) : Receiver := ⟨.check, false, len, body, crc, some 20⟩

theorem witness_FieldByteInHunt :
    (∃ s : State, s.settled = true ∧ s.fieldPort.rx.state = .hunt ∧ s.fieldPort.rx.candidate = true) ∧
    ∃ s : State, s.settled = true ∧ s.fieldPort.rx.state = .hunt ∧ s.fieldPort.rx.candidate = false :=
  ⟨⟨receiving .field huntingCandidate, rfl, rfl, rfl⟩, State.reset, rfl, rfl, rfl⟩

theorem witness_PlannerHuntAndFrameBytes :
    (∃ s : State, s.settled = true ∧ s.plannerPort.rx.state = .hunt ∧ ¬ (s.plannerPort.rx.candidate = true ∧ 0x92#8 = 0x92#8 ∧ 40 ≤ s.outstanding)
      ∧ s.plannerPort.rx.candidate = true) ∧
    (∃ s : State, s.settled = true ∧ (s.rx .field).state = .header ∧ (s.rx .field).len = []) ∧
    (∃ s : State, s.settled = true ∧ (s.rx .field).state = .header ∧ (s.rx .field).len = [0] ∧ 15 ≤ (be16 0 15).toNat ∧ (be16 0 15).toNat ≤ 244) ∧
    (∃ s : State, s.settled = true ∧ (s.rx .planner).state = .header ∧ (s.rx .planner).len = [0] ∧ 4 ≤ (be16 0 164).toNat ∧
      (be16 0 164).toNat ≤ 164) ∧
    (∃ s : State, s.settled = true ∧ (s.rx .planner).state = .body ∧ (s.rx .planner).len = [0, 4]) ∧
    (∃ s : State, s.settled = true ∧ (s.rx .field).state = .check ∧ (s.rx .field).crc = []) ∧
    (∃ s : State, s.settled = true ∧ s.fieldPort.rx.state = .header ∧ s.fieldPort.rx.len = [0] ∧ (be16 0 14).toNat < 15) ∧
    (∃ s : State, s.settled = true ∧ s.plannerPort.rx.state = .header ∧ s.plannerPort.rx.len = [0] ∧ 164 < (be16 0 165).toNat) ∧
    (∃ s : State, s.settled = true ∧ s.fieldPort.rx.state = .check ∧ s.fieldPort.rx.crc = [7]) ∧
    (∃ s : State, s.settled = true ∧ s.plannerPort.rx.state = .check ∧ s.plannerPort.rx.crc = [7]) ∧
    ∃ s : State, s.settled = true ∧ s.plannerPort.rx.state = .hunt ∧ s.plannerPort.rx.candidate = true ∧ 40 ≤ s.outstanding :=
  ⟨⟨receiving .planner huntingCandidate, rfl, rfl, fun h => absurd h.2.2 (by decide +kernel), rfl⟩,
    ⟨receiving .field (inHeader []), rfl, rfl, rfl⟩, ⟨receiving .field (inHeader [0]), rfl, rfl, rfl, by decide, by decide⟩,
    ⟨receiving .planner (inHeader [0]), rfl, rfl, rfl, by decide, by decide⟩,
    ⟨receiving .planner { inHeader [0, 4] with state := .body }, rfl, rfl, rfl⟩, ⟨receiving .field (inCheck [] [] []), rfl, rfl, rfl⟩,
    ⟨receiving .field (inHeader [0]), rfl, rfl, rfl, by decide⟩, ⟨receiving .planner (inHeader [0]), rfl, rfl, rfl, by decide⟩,
    ⟨receiving .field (inCheck [0, 15] [] [7]), rfl, rfl, rfl⟩, ⟨receiving .planner (inCheck [0, 4] [] [7]), rfl, rfl, rfl⟩,
    { device .running with plannerPort := { rx := huntingCandidate, responses := List.replicate 40 (responseTo 0 (request .status []) .ok []) } },
    rfl, rfl, rfl, by decide +kernel⟩

theorem witness_FieldFrameChecked :
    ∃ s : State, s.settled = true ∧ s.fieldPort.rx.state = .check ∧ s.fieldPort.rx.crc = [7] ∧ s.control.condition = .running :=
  ⟨receiving .field (inCheck [0, 15] [] [7]), rfl, rfl, rfl, rfl⟩

theorem witness_LengthRefusedAndMarkerIgnored :
    (∃ s : State, s.settled = true ∧ s.fieldPort.rx.state = .header ∧ s.fieldPort.rx.len = [0] ∧ (be16 0 14).toNat < 15) ∧
    (∃ s : State, s.settled = true ∧ s.fieldPort.rx.state = .header ∧ s.fieldPort.rx.len = [0] ∧ 244 < (be16 0 245).toNat) ∧
    (∃ s : State, s.settled = true ∧ s.plannerPort.rx.state = .header ∧ s.plannerPort.rx.len = [0] ∧ (be16 0 3).toNat < 4) ∧
    (∃ s : State, s.settled = true ∧ s.plannerPort.rx.state = .header ∧ s.plannerPort.rx.len = [0] ∧ 164 < (be16 0 165).toNat) ∧
    ∃ s : State, s.settled = true ∧ s.plannerPort.rx.state = .hunt ∧ s.plannerPort.rx.candidate = true ∧ 40 ≤ s.outstanding :=
  ⟨⟨receiving .field (inHeader [0]), rfl, rfl, rfl, by decide⟩, ⟨receiving .field (inHeader [0]), rfl, rfl, rfl, by decide⟩,
    ⟨receiving .planner (inHeader [0]), rfl, rfl, rfl, by decide⟩, ⟨receiving .planner (inHeader [0]), rfl, rfl, rfl, by decide⟩,
    { device .running with plannerPort := { rx := huntingCandidate, responses := List.replicate 40 (responseTo 0 (request .status []) .ok []) } },
    rfl, rfl, rfl, by decide +kernel⟩

theorem witness_SentMessagesAndGapExpiry :
    (device .running).settled = true ∧
    (∃ s : State, s.settled = true ∧ (s.rx .field).gap = some 20 ∧ (s.rx .field).state = .header) ∧
    ∃ s : State, s.settled = true ∧ (s.rx .planner).gap = some 20 ∧ (s.rx .planner).state = .hunt ∧ (s.rx .planner).candidate = true :=
  ⟨rfl, ⟨receiving .field (inHeader []), rfl, rfl, rfl⟩, receiving .planner huntingCandidate, rfl, rfl, rfl, rfl⟩

theorem witness_BreakAbandons :
    (∃ s : State, s.settled = true ∧ (s.rx .field).state = .check) ∧
    ∃ s : State, s.settled = true ∧ (s.rx .field).state = .hunt ∧ (s.rx .field).candidate = false :=
  ⟨⟨receiving .field (inCheck [] [] []), rfl, rfl⟩, State.reset, rfl, rfl, rfl⟩

theorem witness_RequestFrameHandled :
    (∃ s : State, s.settled = true ∧ s.plannerPort.rx.state = .check ∧ s.plannerPort.rx.crc = [1] ∧ s.plannerPort.rx.body = [7, 0, 1, 0x3C]) ∧
    (∃ s : State, s.settled = true ∧ s.plannerPort.rx.state = .check ∧ s.plannerPort.rx.crc = [1] ∧ s.plannerPort.rx.body = [8, 0, 1, 0x3C]) ∧
    ∃ s : State, s.settled = true ∧ s.plannerPort.rx.state = .check ∧ s.plannerPort.rx.crc = [1] ∧ s.plannerPort.rx.body = [1, 0, 1, 0x3C] ∧
      4 ≤ (s.chan 1).queue.length ∧ s.purging 1 = true :=
  ⟨⟨receiving .planner (inCheck [0, 4] [7, 0, 1, 0x3C] [1]), rfl, rfl, rfl, rfl⟩,
    ⟨receiving .planner (inCheck [0, 4] [8, 0, 1, 0x3C] [1]), rfl, rfl, rfl, rfl⟩,
    { crowded with plannerPort := { rx := inCheck [0, 4] [1, 0, 1, 0x3C] [1], responses := [] } }, rfl, rfl, rfl, rfl, by decide +kernel,
    by decide +kernel⟩

/-- A request whose queue a reset under its grant is about to purge is admitted though four requests stand there (R37). -/
theorem test_admitted_while_purging : ((State.takeIn 1 (request .status []) crowded).chan 1).queue.length = 6 := by decide +kernel
/-- The purge answers it PURGED with the others, in queue order. -/
theorem test_purged_with_the_others :
    (match exec (.channelReset 0) crowded with
      | .next t => t.plannerPort.responses.map Response.code
      | .fault e => nomatch e
      | .refused _ => []) = [.purged, .purged, .purged, .purged, .purged, .ok] := by decide +kernel

/-! ### The Store Arbiter and the common checks -/

theorem witness_ArbiterGrantsInRotation :
    (∃ g, (granted (device .running) 3).arbiter.store = .granted g) ∧
    (∀ p : ArbPos, (device .running).waits p = false) ∧
    ∃ (s : State) (k : ArbPos), s.arbiter.store = .idle ∧ s.arbiter.pointer = 10 ∧ s.waits (s.arbiter.pointer + k) = true ∧
      ∀ j : ArbPos, j < k → s.waits (s.arbiter.pointer + j) = false :=
  ⟨⟨grant 3, rfl⟩, by decide +kernel, { asked (device .running) .lookup 0 [] with arbiter := ⟨10, .idle⟩ }, 2, rfl, rfl, by decide +kernel,
    by decide +kernel⟩

theorem witness_WaitingRequesterComesNearer : ∃ (s : State) (p : ArbPos), s.arbiter.store = .idle ∧ s.waits p = true :=
  ⟨{ asked (device .running) .lookup 7 [] with arbiter := ⟨0, .idle⟩ }, 8, rfl, by decide +kernel⟩

theorem witness_CommonChecksDecideFirst :
    (∃ s : State, s.settled = true ∧ (s.chan 3).queue.head? = some (request .status []) ∧
      commonRefusal .status 3 [] s.control.condition = some .notPermitted ∧ isStoreKind .status = false) ∧
    (∃ (s : State) (g : Grant), s.settled = true ∧ (s.chan 3).queue.head? = some (request .lookup []) ∧
      commonRefusal .lookup 3 [] s.control.condition = some .halted ∧ isStoreKind .lookup = true ∧ s.walkerAtRest ∧
      s.arbiter.store = .granted g ∧ g.pos = posOf 3) ∧
    ∃ (s : State) (rq : Request), s.settled = true ∧ (s.chan 3).queue.head? = some rq ∧ requestKindOf rq.kind = none :=
  ⟨⟨asked (device .running) .status 3 [], rfl, asked_head _ _ _ _, by decide, rfl⟩,
    ⟨asked (device .halted) .lookup 3 [], grant 4, rfl, asked_head _ _ _ _, by decide, rfl, device_rest .halted, rfl, rfl⟩,
    { device .running with channels := vset (Vector.replicate 8 ChannelState.reset) 3 { ChannelState.reset with queue := [⟨1, 0x77, []⟩] } },
    ⟨1, 0x77, []⟩, rfl, by decide +kernel, by decide +kernel⟩

theorem witness_WrongLengthIsBadRequest :
    (∃ s, LocalTurn .fetch 3 (request .fetch []) s ∧ s.control.condition = .running ∧ fixedLength .fetch = some 1 ∧ isStoreKind .fetch = false) ∧
    (∃ s, StoreTurn .lookup 3 (request .lookup [0, 0, 0]) (grant 4) s ∧ s.control.condition = .running ∧ s.walkerAtRest ∧
      fixedLength .lookup = some 4 ∧ isStoreKind .lookup = true) ∧
    (∃ s, LocalTurn .takeNotices 3 (request .takeNotices [9]) s ∧ ¬ bodyInRange .takeNotices [9] ∧ s.control.condition = .halted) ∧
    (∃ g s, StoreTurn .claim 3 (request .claim [0, 0, 5, 0xA1, 0]) g s ∧ ¬ bodyInRange .claim [0, 0, 5, 0xA1, 0] ∧
      s.control.condition = .running ∧ s.walkerAtRest) ∧
    ∃ g s, StoreTurn .release 3 (request .release [63, 0, 0, 1]) g s ∧ ¬ bodyInRange .release [63, 0, 0, 1] ∧ s.control.condition = .config ∧
      s.walkerAtRest :=
  ⟨⟨_, asked_local (device .running) .fetch 3 [] rfl rfl, rfl, rfl, rfl⟩,
    ⟨_, asked_turn (device .running) .lookup 3 [0, 0, 0] rfl rfl, rfl, device_rest .running, rfl, rfl⟩,
    ⟨_, asked_local (device .halted) .takeNotices 3 [9] rfl rfl, by
      rintro ⟨n, hb, -, hn⟩
      cases hb
      exact absurd hn (by decide), rfl⟩,
    ⟨_, _, asked_turn (device .running) .claim 3 [0, 0, 5, 0xA1, 0] rfl rfl, by
      rintro ⟨t1, t0, h1, h0, n, rest, hb, -, hh, -⟩
      cases hb
      exact absurd hh (by decide), rfl, device_rest .running⟩,
    _, _, asked_turn (device .config) .release 3 [63, 0, 0, 1] rfl rfl, by
      rintro ⟨r, t1, t0, n, rest, hb, -, -, bins, hr, hl, -⟩
      cases hb
      cases bins with
      | nil => exact absurd hl (by decide)
      | cons b bs => exact absurd hr (by simp [byte4]), rfl, device_rest .config⟩

/-- Both bounds of FETCH's count and of a route index are in range. -/
theorem test_bodies_in_range : bodyInRange .fetch [1] ∧ bodyInRange .fetch [16] ∧ bodyInRange .routeStatus [63] :=
  ⟨⟨1, rfl, by decide, by decide⟩, ⟨16, rfl, by decide, by decide⟩, 63, rfl, by decide⟩

/-! ### Fill, ready evaluation and checked reads -/

theorem witness_FillIsRoundedShareOfSpan :
    litterProfile.fullRef < litterProfile.emptyRef ∧ litterProfile.fullRef < 601 ∧ 2999 < litterProfile.emptyRef := by decide

/-- The work of a device's store at minute 10. -/
def testWork (s : State) : Work := workOf s (grant 0)

theorem witness_EvaluationBringsRecordIntoLine : (testWork (device .running)).record 0 = some (liveRecord 5 none) := rfl

theorem witness_CheckedReadsRepairPoisonOrHalt :
    (∀ (c : Condition) (k h : Health), ∃ r : BinRecord, (testWork (hurt c k h)).record 1 = some r ∧ (testWork (hurt c k h)).halting = false ∧
      r.keyHealth = k ∧ r.readingHealth = h ∧ (testWork (hurt c k h)).condition = c ∧ r.key.claim = some 0 ∧
      (testWork (hurt c k h)).route 0 = some testRoute) ∧
    (∀ (c : Condition) (h : Health), ∃ w : Work, w.condition = c ∧ sfind 24 w.store.wayHealth = some h ∧ sfind 255 w.store.overflowHealth = some h) ∧
    (∃ w : Work, (∃ k ∈ [24, 25, 26, 27], ∃ e, sfind k w.store.ways = some e ∧ e.bin = 6) ∧ bucketOf 6 = 6) ∧
    ∃ w : Work, ∃ place slot, (lookupBin 6 w).2 = some (place, slot) ∧ ∀ k ∈ [24, 25, 26, 27], sfind k w.store.ways = none :=
  ⟨fun _ _ _ => ⟨_, rfl, rfl, rfl, rfl, rfl, rfl, held_0⟩,
    fun c h => ⟨testWork { device c with store := { testStore with wayHealth := [(24, h)], overflowHealth := [(255, h)] } }, rfl, rfl, rfl⟩,
    ⟨testWork (device .running), ⟨24, by decide, ⟨6, 1⟩, rfl, rfl⟩, by decide +kernel⟩,
    testWork { device .running with store := { testStore with ways := [], overflow := [(255, ⟨6, 6, 1⟩)] } }, .overflow 255, 1, by decide +kernel,
    fun _ _ => rfl⟩

/-! ### Entries -/

/-- The device of the tests with an entry at the head of the Update Queue and position 0 granted. -/
def reporting (e : Entry) : State := granted { device .running with updateQueue := [e] } 0

theorem reporting_turn (e : Entry) : EntryTurn e (grant 0) (reporting e) := ⟨rfl, rfl, rfl, rfl⟩

/-- A FILL at a minute. -/
def fillAt (bin : BinNumber) (t : Minute) : Entry := ⟨bin, t, .fill ⟨12, 840⟩ 9, 3⟩
/-- A FILL whose value is 0. -/
def emptyFillAt (bin : BinNumber) (t : Minute) : Entry := ⟨bin, t, .fill ⟨8, 255⟩ 15, 3⟩

/-- A lookup of bin 6 reads no group of a record, so that it finds slot 1 whatever the health of the record there. -/
theorem found_6 {c : Condition} {k h : Health} {q : List Entry} {p : ArbPos} {g : Grant} :
    (lookupBin 6 (workOf (granted { hurt c k h with updateQueue := q } p) g)).1.halting = false ∧
      (lookupBin 6 (workOf (granted { hurt c k h with updateQueue := q } p) g)).2 = some (.way 24, 1) := ⟨rfl, rfl⟩

theorem witness_DiscardedEntryChangesNoRecord :
    (∃ e s, EntryTurn e (grant 0) s ∧ s.walkerAtRest ∧ s.store.sound ∧ s.store.locate e.bin = none) ∧
    (∃ e s, EntryTurn e (grant 0) s ∧ s.walkerAtRest ∧ s.store.sound ∧ s.store.holds e.bin 2 (poisonedRecord 7) ∧
      (poisonedRecord 7).key.state = .poisoned) ∧
    (∃ e s, EntryTurn e (grant 0) s ∧ s.walkerAtRest ∧ s.store.sound ∧ s.store.holds e.bin 0 (liveRecord 5 none) ∧
      (grant 0).clock.toNat + 2 < e.time.toNat ∧ e.time = 13) ∧
    (∃ e s, EntryTurn e (grant 0) s ∧ s.walkerAtRest ∧ s.store.sound ∧ s.store.holds e.bin 0 (liveRecord 5 none) ∧
      e.time.toNat ≤ (grant 0).clock.toNat + 2 ∧ isStale e (liveRecord 5 none).reading = true ∧ e.time = 3) ∧
    (∃ e s, EntryTurn e (grant 0) s ∧ s.control.condition ≠ .halted ∧ (lookupBin e.bin (workOf s (grant 0))).1.halting = true) ∧
    ∀ k h : Health, ∃ e s place slot r, EntryTurn e (grant 0) s ∧ s.control.condition ≠ .halted ∧
      (lookupBin e.bin (workOf s (grant 0))).1.halting = false ∧ (lookupBin e.bin (workOf s (grant 0))).2 = some (place, slot) ∧
      sfind slot s.store.slots = some r ∧ r.keyHealth = k ∧ r.readingHealth = h ∧ s.walkerAtRest ∧ ∀ t, JobGoesOn s t :=
  ⟨⟨_, _, reporting_turn (fillAt 9 5), device_rest .running, testStore_sound, locate_unknown⟩,
    ⟨_, _, reporting_turn (fillAt 7 5), device_rest .running, testStore_sound, holds_7, rfl⟩,
    ⟨_, _, reporting_turn (fillAt 5 13), device_rest .running, testStore_sound, holds_5, by decide, rfl⟩,
    ⟨_, _, reporting_turn (fillAt 5 3), device_rest .running, testStore_sound, holds_5, by decide, rfl, rfl⟩,
    ⟨fillAt 6 5, granted { hurtWay .running with updateQueue := [fillAt 6 5] } 0, ⟨rfl, rfl, rfl, rfl⟩, by decide, by decide +kernel⟩,
    fun k h => ⟨fillAt 6 5, granted { hurt .running k h with updateQueue := [fillAt 6 5] } 0, .way 24, 1, _, ⟨rfl, rfl, rfl, rfl⟩, nofun,
      found_6.1, found_6.2, rfl, rfl, rfl, ⟨rfl, rfl, rfl⟩, idle_goesOn rfl⟩⟩

/-- One record, of fill 10, in no ready list. -/
def lowRecord : BinRecord :=
  { liveRecord 5 none with
    key := { (liveRecord 5 none).key with ready := false, band := some 1 }
    reading := { ReadingGroup.empty with fill := some ⟨10, 3⟩ } }

/-- A device with that record only, its tables in order: the spike filter holds a sudden rise back. -/
def lowDevice : State :=
  { device .running with
    store := { RecordStore.reset with
      slots := [(0, lowRecord)]
      ways := [(20, ⟨5, 0⟩)]
      zones := vset (Vector.replicate 64 Zone.reset) 0 { Zone.reset with
        counters := { ZoneCounters.zero with records := 1, bands := vset (Vector.replicate 10 0) 1 1 } } }
    profiles := { testProfiles with users := vset (Vector.replicate 32 0) 0 1 } }

/-- What the statements about an entry's zone assume of the tables. -/
def zoneTables (s : State) : Prop := s.walkerAtRest ∧ s.store.ordered ∧ s.countsAgree ∧ s.countersAgree ∧ s.store.readyInOrder

theorem device_zoneTables (q : List Entry) (p : ArbPos) : zoneTables (granted { device .running with updateQueue := q } p) :=
  ⟨⟨rfl, rfl, rfl⟩, testStore_ordered, device_counts .running, device_counters .running, testStore_inOrder⟩

theorem lowDevice_inOrder : lowDevice.store.readyInOrder := by
  intro z
  have hz : ∀ z : ZoneNo, (vget lowDevice.store.zones z).readyList = [] ∧ (vget lowDevice.store.zones z).counters.readyMembers = 0 := by
    decide +kernel
  rw [(hz z).1, (hz z).2]
  refine ⟨by decide, fun n => ⟨fun h => absurd h (by simp), ?_⟩, fun n h => absurd h (by simp), by simp, rfl⟩
  rintro ⟨r, hn, -, hr⟩
  have hm := mem_of_sfind hn
  simp only [lowDevice, List.mem_singleton, Prod.mk.injEq] at hm
  rw [hm.2] at hr
  cases hr

theorem lowDevice_zoneTables (q : List Entry) (p : ArbPos) : zoneTables (granted { lowDevice with updateQueue := q } p) :=
  ⟨⟨rfl, rfl, rfl⟩, (by unfold RecordStore.ordered Ordered; decide +kernel : lowDevice.store.ordered),
    (by unfold State.countsAgree; decide +kernel : lowDevice.countsAgree),
    (by unfold State.countersAgree; decide +kernel : lowDevice.countersAgree), lowDevice_inOrder⟩

theorem witness_ValidFillAppliedOrHeld :
    (∃ e s, EntryTurn e (grant 0) s ∧ e.report = .fill ⟨8, 255⟩ 15 ∧ s.store.sound ∧ s.store.holds e.bin 0 (liveRecord 5 none) ∧
      (liveRecord 5 none).key.state ≠ .poisoned ∧ e.time.toNat ≤ (grant 0).clock.toNat + 2 ∧ e.time = 12 ∧
      isStale e (liveRecord 5 none).reading = false ∧
      spikeFilter (vget s.profiles.active 0) (liveRecord 5 none).reading (computeFill (vget s.profiles.active 0) (255 * 2 ^ 4)) 12 = .apply ∧
      zoneTables s) ∧
    ∃ e s r, EntryTurn e (grant 0) s ∧ e.report = .fill ⟨12, 840⟩ 9 ∧ s.store.sound ∧ s.store.holds e.bin 0 r ∧
      r.key.state ≠ .poisoned ∧ e.time.toNat ≤ (grant 0).clock.toNat + 2 ∧ isStale e r.reading = false ∧
      spikeFilter (vget s.profiles.active 0) r.reading (computeFill (vget s.profiles.active 0) 840) 4 = .hold ∧ zoneTables s :=
  ⟨⟨_, _, reporting_turn (emptyFillAt 5 12), rfl, testStore_sound, holds_5, by decide, by decide, rfl, rfl, by decide +kernel,
      device_zoneTables _ _⟩,
    fillAt 5 4, granted { lowDevice with updateQueue := [fillAt 5 4] } 0, _, ⟨rfl, rfl, rfl, rfl⟩, rfl,
    by unfold RecordStore.sound; decide, ⟨by decide +kernel, rfl⟩, by decide, by decide, rfl, by decide +kernel, lowDevice_zoneTables _ _⟩

theorem witness_ValidEmptiedApplied :
    (∃ e s, EntryTurn e (grant 0) s ∧ e.report = .emptied 7 none ∧ s.store.sound ∧ s.store.holds e.bin 0 (liveRecord 5 none) ∧
      (liveRecord 5 none).key.state ≠ .poisoned ∧ e.time.toNat ≤ (grant 0).clock.toNat + 2 ∧ e.time = 12 ∧
      isStale e (liveRecord 5 none).reading = false ∧ zoneTables s) ∧
    ∃ e s, EntryTurn e (grant 0) s ∧ e.report = .emptied 7 (some ⟨12, 2000⟩) ∧ s.store.sound ∧
      s.store.holds e.bin 1 (liveRecord 6 (some 0)) ∧ (liveRecord 6 (some 0)).key.state ≠ .poisoned ∧
      e.time.toNat ≤ (grant 0).clock.toNat + 2 ∧ isStale e (liveRecord 6 (some 0)).reading = false ∧
      (liveRecord 6 (some 0)).key.claim = some 0 ∧ vget s.store.routes 0 = some testRoute ∧ zoneTables s :=
  ⟨⟨_, _, reporting_turn ⟨5, 12, .emptied 7 none, 3⟩, rfl, testStore_sound, holds_5, by decide, by decide, rfl, rfl, device_zoneTables _ _⟩,
    _, _, reporting_turn ⟨6, 2, .emptied 7 (some ⟨12, 2000⟩), 3⟩, rfl, testStore_sound, holds_6, by decide, by decide, rfl, rfl,
    by decide +kernel, device_zoneTables _ _⟩

theorem witness_ValidFaultApplied :
    ∃ e s, EntryTurn e (grant 0) s ∧ e.report = .fault 15 3 ∧ s.store.sound ∧ s.store.holds e.bin 0 (liveRecord 5 none) ∧
      (liveRecord 5 none).key.state ≠ .poisoned ∧ e.time.toNat ≤ (grant 0).clock.toNat + 2 ∧ e.time = 12 ∧
      isStale e (liveRecord 5 none).reading = false ∧ zoneTables s :=
  ⟨_, _, reporting_turn ⟨5, 12, .fault 15 3, 3⟩, rfl, testStore_sound, holds_5, by decide, by decide, rfl, rfl, device_zoneTables _ _⟩

/-! ### Record requests -/

/-- REGISTER's turn on channel 0 with a body, on a device with a store. -/
def registering (st : RecordStore) (body : List Byte) : State := asked { device .config with store := st } .register 0 body

theorem registering_turn (st : RecordStore) (body : List Byte) :
    StoreTurn .register 0 (request .register body) (grant 1) (registering st body) :=
  asked_turn _ _ _ _ rfl rfl

/-- Every slot of the Slot Table occupied. -/
def fullSlots : List (Nat × BinRecord) := (List.range' 0 16384).map (fun n => (n, liveRecord 1 none))

theorem lowestFree_range' (k n : Nat) (r : BinRecord) : lowestFree k ((List.range' k n).map (fun m => (m, r))) = k + n := by
  induction n generalizing k with
  | zero => simp [lowestFree]
  | succ n ih => simp [List.range'_succ, lowestFree, ih]; omega

/-- The bucket of bin 4,097 full in its ways, and every overflow entry taken. -/
def fullIndex : RecordStore :=
  { testStore with
    ways := [(0, ⟨4096, 0⟩), (1, ⟨4096, 0⟩), (2, ⟨4096, 0⟩), (3, ⟨4096, 0⟩)]
    overflow := (List.range 256).map (fun k => (k, ⟨1, 1, 0⟩)) }

theorem fullSlots_sound : ({ testStore with slots := fullSlots } : RecordStore).sound := by
  refine ⟨rfl, rfl, fun p hp => ?_⟩
  obtain ⟨n, -, rfl⟩ := List.mem_map.1 hp
  exact ⟨rfl, rfl⟩

theorem witness_RegisterChecksThenPlaces :
    (∃ rq g q s, StoreTurn .register 0 rq g s ∧ s.walkerAtRest ∧ s.store.sound ∧ parseRegister rq.body = some q ∧
      s.store.locate q.bin = some 0) ∧
    (∃ rq g q s, StoreTurn .register 0 rq g s ∧ s.walkerAtRest ∧ s.store.sound ∧ parseRegister rq.body = some q ∧
      s.store.locate q.bin = none ∧ (vget s.profiles.active q.profile).emptyRef ≤ (vget s.profiles.active q.profile).fullRef) ∧
    (∃ rq g q s, StoreTurn .register 0 rq g s ∧ s.walkerAtRest ∧ s.store.sound ∧ parseRegister rq.body = some q ∧
      s.store.locate q.bin = none ∧ (vget s.profiles.active q.profile).fullRef < (vget s.profiles.active q.profile).emptyRef ∧
      ((vget s.profiles.active q.profile).cls = .litter ↔ q.kind ≠ .litter)) ∧
    (∃ rq g q s, StoreTurn .register 0 rq g s ∧ s.walkerAtRest ∧ s.store.sound ∧ parseRegister rq.body = some q ∧
      s.store.locate q.bin = none ∧ (vget s.profiles.active q.profile).fullRef < (vget s.profiles.active q.profile).emptyRef ∧
      ((vget s.profiles.active q.profile).cls = .litter ↔ q.kind = .litter) ∧ 16384 ≤ lowestFree 0 s.store.slots) ∧
    (∃ rq g q s, StoreTurn .register 0 rq g s ∧ s.walkerAtRest ∧ s.store.sound ∧ parseRegister rq.body = some q ∧
      s.store.locate q.bin = none ∧ (vget s.profiles.active q.profile).fullRef < (vget s.profiles.active q.profile).emptyRef ∧
      ((vget s.profiles.active q.profile).cls = .litter ↔ q.kind = .litter) ∧ lowestFree 0 s.store.slots < 16384 ∧
      freeWay s.store (bucketOf q.bin) = none ∧ freeOverflow s.store = none) ∧
    (∃ rq g q s, StoreTurn .register 0 rq g s ∧ s.walkerAtRest ∧ s.store.sound ∧ parseRegister rq.body = some q ∧
      s.store.locate q.bin = none ∧ (vget s.profiles.active q.profile).fullRef < (vget s.profiles.active q.profile).emptyRef ∧
      ((vget s.profiles.active q.profile).cls = .litter ↔ q.kind = .litter) ∧ lowestFree 0 s.store.slots < 16384 ∧
      freeWay s.store (bucketOf q.bin) ≠ none) ∧
    (∃ rq g q s, StoreTurn .register 0 rq g s ∧ s.walkerAtRest ∧ s.store.sound ∧ parseRegister rq.body = some q ∧
      s.store.locate q.bin = none ∧ (vget s.profiles.active q.profile).fullRef < (vget s.profiles.active q.profile).emptyRef ∧
      ((vget s.profiles.active q.profile).cls = .litter ↔ q.kind = .litter) ∧ lowestFree 0 s.store.slots < 16384 ∧
      freeWay s.store (bucketOf q.bin) = none ∧ freeOverflow s.store = some 0) ∧
    ∃ rq g q s, StoreTurn .register 0 rq g s ∧ parseRegister rq.body = some q ∧ (lookupBin q.bin (workOf s g)).1.halting = true :=
  ⟨⟨_, _, _, _, registering_turn testStore [0, 0, 0, 5, 0, 0, 0], device_rest .config, testStore_sound, rfl, by decide +kernel⟩,
    ⟨_, _, _, _, registering_turn testStore [0, 0, 0, 9, 0, 0, 1], device_rest .config, testStore_sound, rfl, locate_unknown,
      by decide +kernel⟩,
    ⟨_, _, _, _, registering_turn testStore [0, 0, 0, 9, 1, 63, 3], device_rest .config, testStore_sound, rfl, locate_unknown,
      by decide +kernel, by decide +kernel⟩,
    ⟨_, _, _, _, registering_turn { testStore with slots := fullSlots } [0, 0, 0, 9, 0, 0, 3], device_rest .config, fullSlots_sound, rfl,
      by decide +kernel, by decide +kernel, by decide +kernel, (lowestFree_range' 0 16384 _).ge⟩,
    ⟨_, _, _, _, registering_turn fullIndex [0, 0, 16, 1, 3, 0, 2], device_rest .config, by unfold RecordStore.sound; decide, rfl,
      by decide +kernel, by decide +kernel, by decide +kernel, by decide +kernel, by decide +kernel, by decide +kernel⟩,
    ⟨_, _, _, _, registering_turn testStore [0, 0, 0, 9, 0, 63, 3], device_rest .config, testStore_sound, rfl, locate_unknown,
      by decide +kernel, by decide +kernel, by decide +kernel, by decide +kernel⟩,
    ⟨_, _, _, _, registering_turn { fullIndex with overflow := [] } [0, 0, 16, 1, 0, 0, 0], device_rest .config,
      by unfold RecordStore.sound; decide, rfl, by decide +kernel, by decide +kernel, by decide +kernel, by decide +kernel, by decide +kernel,
      by decide +kernel⟩,
    _, _, _, _, registering_turn { testStore with wayHealth := [(24, .double)] } [0, 0, 0, 6, 0, 0, 0], rfl, by decide +kernel⟩

/-- AMEND's turn on channel 0. -/
def amending (body : List Byte) : State := asked (device .running) .amend 0 body

theorem amending_turn (body : List Byte) : StoreTurn .amend 0 (request .amend body) (grant 1) (amending body) := asked_turn _ _ _ _ rfl rfl

theorem witness_AmendChangesNamedFields :
    (∃ rq g q s, StoreTurn .amend 0 rq g s ∧ s.walkerAtRest ∧ s.store.sound ∧ parseAmend rq.body = some q ∧
      s.store.holds q.bin 2 (poisonedRecord 7)) ∧
    (∃ rq g q s, StoreTurn .amend 0 rq g s ∧ s.walkerAtRest ∧ s.store.sound ∧ parseAmend rq.body = some q ∧
      s.store.holds q.bin 1 (liveRecord 6 (some 0)) ∧ q.zone = some 1 ∧ vget s.store.routes 0 = some testRoute) ∧
    (∃ rq g q s, StoreTurn .amend 0 rq g s ∧ s.walkerAtRest ∧ s.store.sound ∧ parseAmend rq.body = some q ∧
      s.store.holds q.bin 0 (liveRecord 5 none) ∧ q.profile = some 1 ∧
      (vget s.profiles.active 1).emptyRef ≤ (vget s.profiles.active 1).fullRef) ∧
    (∃ rq g q s, StoreTurn .amend 0 rq g s ∧ s.walkerAtRest ∧ s.store.sound ∧ parseAmend rq.body = some q ∧
      s.store.holds q.bin 0 (liveRecord 5 none) ∧ q.kind = some .glassClear ∧ q.profile = none ∧
      (vget s.profiles.active 0).fullRef < (vget s.profiles.active 0).emptyRef ∧ (vget s.profiles.active 0).cls = .litter) ∧
    (∃ rq g q s, StoreTurn .amend 0 rq g s ∧ s.walkerAtRest ∧ s.store.sound ∧ parseAmend rq.body = some q ∧
      s.store.holds q.bin 0 (liveRecord 5 none) ∧ q.kind = some .litter ∧ q.zone = none ∧ q.profile = none) ∧
    (∃ rq g q s, StoreTurn .amend 0 rq g s ∧ s.walkerAtRest ∧ s.store.sound ∧ parseAmend rq.body = some q ∧
      s.store.holds q.bin 0 (liveRecord 5 none) ∧ q.kind = some .glassBrown ∧ q.zone = some 63 ∧ q.profile = some 2 ∧
      (vget s.profiles.active 2).fullRef < (vget s.profiles.active 2).emptyRef ∧ (vget s.profiles.active 2).cls = .glass ∧
      ∀ t, JobGoesOn s t) ∧
    (∃ rq g q s, StoreTurn .amend 0 rq g s ∧ s.walkerAtRest ∧ s.store.sound ∧ parseAmend rq.body = some q ∧
      s.store.holds q.bin 0 (liveRecord 5 none) ∧ q.zone = none ∧ q.profile = some 3 ∧
      (vget s.profiles.active 3).fullRef < (vget s.profiles.active 3).emptyRef ∧ (vget s.profiles.active 3).cls = .litter ∧
      s.store.ordered ∧ s.countsAgree ∧ s.countersAgree ∧ s.store.readyInOrder ∧ ∀ t, JobGoesOn s t) ∧
    (∃ rq g q s, StoreTurn .amend 0 rq g s ∧ s.walkerAtRest ∧ s.store.sound ∧ parseAmend rq.body = some q ∧ s.store.locate q.bin = none) ∧
    (∃ rq g q s, StoreTurn .amend 0 rq g s ∧ parseAmend rq.body = some q ∧ (lookupBin q.bin (workOf s g)).1.halting = true) ∧
    ∀ k h : Health, ∃ rq g q s place slot r, StoreTurn .amend 0 rq g s ∧ parseAmend rq.body = some q ∧
      (lookupBin q.bin (workOf s g)).1.halting = false ∧ (lookupBin q.bin (workOf s g)).2 = some (place, slot) ∧
      sfind slot s.store.slots = some r ∧ r.keyHealth = k ∧ r.readingHealth = h ∧ s.walkerAtRest ∧ ∀ t, JobGoesOn s t :=
  ⟨⟨_, _, _, _, amending_turn [0, 0, 0, 7, 2, 0, 1, 0], device_rest .running, testStore_sound, rfl, holds_7⟩,
    ⟨_, _, _, _, amending_turn [0, 0, 0, 6, 2, 0, 1, 0], device_rest .running, testStore_sound, rfl, holds_6, rfl, by decide +kernel⟩,
    ⟨_, _, _, _, amending_turn [0, 0, 0, 5, 4, 0, 0, 1], device_rest .running, testStore_sound, rfl, holds_5, rfl, by decide +kernel⟩,
    ⟨_, _, _, _, amending_turn [0, 0, 0, 5, 1, 1, 0, 0], device_rest .running, testStore_sound, rfl, holds_5, rfl, rfl, by decide +kernel,
      by decide +kernel⟩,
    ⟨_, _, _, _, amending_turn [0, 0, 0, 5, 1, 0, 0, 0], device_rest .running, testStore_sound, rfl, holds_5, rfl, rfl, rfl⟩,
    ⟨_, _, _, _, amending_turn [0, 0, 0, 5, 7, 3, 63, 2], device_rest .running, testStore_sound, rfl, holds_5, rfl, rfl, rfl,
      by decide +kernel, by decide +kernel, idle_goesOn rfl⟩,
    ⟨_, _, _, _, amending_turn [0, 0, 0, 5, 4, 0, 0, 3], device_rest .running, testStore_sound, rfl, holds_5, rfl, rfl,
      by decide +kernel, by decide +kernel, testStore_ordered, device_counts .running, device_counters .running, testStore_inOrder,
      idle_goesOn rfl⟩,
    ⟨_, _, _, _, amending_turn [0, 0, 0, 9, 4, 0, 0, 3], device_rest .running, testStore_sound, rfl, locate_unknown⟩,
    ⟨_, _, _, _, asked_turn (hurtWay .running) .amend 0 [0, 0, 0, 6, 4, 0, 0, 3] rfl rfl, rfl, by decide +kernel⟩,
    fun k h => ⟨_, _, _, _, .way 24, 1, _, asked_turn (hurt .running k h) .amend 0 [0, 0, 0, 6, 4, 0, 0, 3] rfl rfl, rfl, rfl, rfl, rfl, rfl,
      rfl, ⟨rfl, rfl, rfl⟩, idle_goesOn rfl⟩⟩

/-- Bucket 5 filled by five bins: four in its ways, the fifth in overflow entry 0. -/
def spilledStore : RecordStore :=
  { RecordStore.reset with
    slots := [(0, liveRecord 5 none), (1, liveRecord 4100 none), (2, liveRecord 8199 none), (3, liveRecord 12294 none), (4, liveRecord 16385 none)]
    ways := [(20, ⟨5, 0⟩), (21, ⟨4100, 1⟩), (22, ⟨8199, 2⟩), (23, ⟨12294, 3⟩)]
    overflow := [(0, ⟨5, 16385, 4⟩)] }

theorem spilled_index : spilledStore.indexAgrees := by unfold RecordStore.indexAgrees; decide +kernel
theorem spilled_sound : spilledStore.sound := by unfold RecordStore.sound; decide
theorem spilled_ordered : spilledStore.ordered := by unfold RecordStore.ordered Ordered; decide +kernel

/-- A way of the bucket, whose overflow entry is then promoted, and the overflow entry itself. -/
theorem spilled_places :
    spilledStore.placeOf 4100 = some (.way 21) ∧ spilledStore.locate 4100 = some 1 ∧ spilledStore.placeOf 16385 = some (.overflow 0) ∧
      spilledStore.locate 16385 = some 4 := by decide +kernel

theorem witness_RetireRemovesRecord :
    (∃ rq g s, StoreTurn .retire 0 rq g s ∧ s.store.sound ∧ s.store.ordered ∧ parseRetire rq.body = some (6, false) ∧
      s.store.holds 6 1 (liveRecord 6 (some 0)) ∧ vget s.store.routes 0 = some testRoute ∧ s.walkerAtRest) ∧
    (∃ rq g s, StoreTurn .retire 0 rq g s ∧ s.store.sound ∧ s.store.ordered ∧ parseRetire rq.body = some (6, true) ∧
      s.store.holds 6 1 (liveRecord 6 (some 0)) ∧ s.walkerAtRest ∧ ∀ t, JobGoesOn s t) ∧
    (∃ rq g s, StoreTurn .retire 0 rq g s ∧ s.store.sound ∧ s.store.ordered ∧ parseRetire rq.body = some (5, false) ∧
      s.store.holds 5 0 (liveRecord 5 none) ∧ s.store.indexAgrees ∧ s.store.placeOf 5 = some (.way 20) ∧
      ∀ x ∈ s.store.overflow, x.2.bucket ≠ bucketOf 5) ∧
    (∃ rq g s, StoreTurn .retire 0 rq g s ∧ s.store.sound ∧ s.store.ordered ∧ parseRetire rq.body = some (4100, false) ∧
      s.store.holds 4100 1 (liveRecord 4100 none) ∧ s.store.indexAgrees ∧ s.store.placeOf 4100 = some (.way 21) ∧
      sfind 0 s.store.overflow = some ⟨bucketOf 4100, 16385, 4⟩) ∧
    (∃ rq g s, StoreTurn .retire 0 rq g s ∧ s.store.sound ∧ s.store.ordered ∧ parseRetire rq.body = some (16385, false) ∧
      s.store.holds 16385 4 (liveRecord 16385 none) ∧ s.store.indexAgrees ∧ s.store.placeOf 16385 = some (.overflow 0)) ∧
    (∃ rq g s, StoreTurn .retire 0 rq g s ∧ s.walkerAtRest ∧ s.store.sound ∧ parseRetire rq.body = some (9, false) ∧ s.store.locate 9 = none) ∧
    (∃ rq g s, StoreTurn .retire 0 rq g s ∧ parseRetire rq.body = some (6, true) ∧ (lookupBin 6 (workOf s g)).1.halting = true) ∧
    (∀ k h : Health, ∃ rq g s place slot r, StoreTurn .retire 0 rq g s ∧ parseRetire rq.body = some (6, true) ∧
      (lookupBin 6 (workOf s g)).1.halting = false ∧ (lookupBin 6 (workOf s g)).2 = some (place, slot) ∧
      sfind slot s.store.slots = some r ∧ r.keyHealth = k ∧ r.readingHealth = h) ∧
    ∃ rq g s r, StoreTurn .retire 0 rq g s ∧ parseRetire rq.body = some (5, false) ∧ (lookupBin 5 (workOf s g)).1.halting = false ∧
      (lookupBin 5 (workOf s g)).2 = some (.way 20, 0) ∧ sfind 0 s.store.slots = some r ∧ r.keyHealth ≠ .double ∧ r.key.claim = none ∧
      ((List.range 256).foldl checkOverflow (checkKey 0 (lookupBin 5 (workOf s g)).1)).halting = true :=
  ⟨⟨_, _, _, asked_turn (device .running) .retire 0 [0, 0, 0, 6, 0] rfl rfl, testStore_sound, testStore_ordered, rfl, holds_6,
      by decide +kernel, device_rest .running⟩,
    ⟨_, _, _, asked_turn (device .running) .retire 0 [0, 0, 0, 6, 1] rfl rfl, testStore_sound, testStore_ordered, rfl, holds_6,
      device_rest .running, idle_goesOn rfl⟩,
    ⟨_, _, _, asked_turn (device .running) .retire 0 [0, 0, 0, 5, 0] rfl rfl, testStore_sound, testStore_ordered, rfl, holds_5, testStore_index,
      by decide +kernel, by decide⟩,
    ⟨_, _, _, asked_turn { device .running with store := spilledStore } .retire 0 [0, 0, 16, 4, 0] rfl rfl, spilled_sound, spilled_ordered,
      rfl, ⟨spilled_places.2.1, rfl⟩, spilled_index, spilled_places.1, by decide +kernel⟩,
    ⟨_, _, _, asked_turn { device .running with store := spilledStore } .retire 0 [0, 0, 64, 1, 0] rfl rfl, spilled_sound, spilled_ordered,
      rfl, ⟨spilled_places.2.2.2, rfl⟩, spilled_index, spilled_places.2.2.1⟩,
    ⟨_, _, _, asked_turn (device .running) .retire 0 [0, 0, 0, 9, 0] rfl rfl, device_rest .running, testStore_sound, rfl, locate_unknown⟩,
    ⟨_, _, _, asked_turn (hurtWay .running) .retire 0 [0, 0, 0, 6, 1] rfl rfl, rfl, by decide +kernel⟩,
    fun k h => ⟨_, _, _, .way 24, 1, _, asked_turn (hurt .running k h) .retire 0 [0, 0, 0, 6, 1] rfl rfl, rfl, rfl, rfl, rfl, rfl, rfl⟩,
    _, _, _, _, asked_turn { device .running with store := { spilledStore with overflowHealth := [(255, .double)] } } .retire 0 [0, 0, 0, 5, 0]
      rfl rfl, rfl, rfl, rfl, rfl, by decide, rfl, by decide +kernel⟩

theorem witness_LookupAnswersRecordView :
    (∃ rq g s, StoreTurn .lookup 7 rq g s ∧ s.walkerAtRest ∧ s.store.sound ∧ parseLookup rq.body = some 9 ∧ s.store.locate 9 = none) ∧
    (∃ rq g s, StoreTurn .lookup 7 rq g s ∧ s.walkerAtRest ∧ s.store.sound ∧ parseLookup rq.body = some 5 ∧
      s.store.holds 5 0 (liveRecord 5 none)) ∧
    (∃ rq g s, StoreTurn .lookup 7 rq g s ∧ parseLookup rq.body = some 6 ∧ (lookupBin 6 (workOf s g)).1.halting = true) ∧
    ∀ k h : Health, ∃ rq g s place slot r, StoreTurn .lookup 7 rq g s ∧ parseLookup rq.body = some 6 ∧
      (lookupBin 6 (workOf s g)).1.halting = false ∧ (lookupBin 6 (workOf s g)).2 = some (place, slot) ∧
      sfind slot s.store.slots = some r ∧ r.keyHealth = k ∧ r.readingHealth = h ∧ s.walkerAtRest ∧ ∀ t, JobGoesOn s t :=
  ⟨⟨_, _, _, asked_turn (device .config) .lookup 7 [0, 0, 0, 9] rfl rfl, device_rest .config, testStore_sound, rfl, locate_unknown⟩,
    ⟨_, _, _, asked_turn (device .config) .lookup 7 [0, 0, 0, 5] rfl rfl, device_rest .config, testStore_sound, rfl, holds_5⟩,
    ⟨_, _, _, asked_turn (hurtWay .running) .lookup 7 [0, 0, 0, 6] rfl rfl, rfl, by decide +kernel⟩,
    fun k h => ⟨_, _, _, .way 24, 1, _, asked_turn (hurt .running k h) .lookup 7 [0, 0, 0, 6] rfl rfl, rfl, rfl, rfl, rfl, rfl, rfl,
      ⟨rfl, rfl, rfl⟩, idle_goesOn rfl⟩⟩

/-- The record view of bin 5 as the bytes of Table 11.10. -/
theorem test_record_view :
    recordView 0 (liveRecord 5 none) =
      [0, 0, 0, 5, 0, 0, 0, 0, 0, 1, 0, 0, 0, 1, 1, 0, 0x26, 0, 90, 0, 0, 0, 3, 3, 0x48, 0, 0, 0, 0, 0, 0, 0, 0, 0, 0, 3, 0, 0, 0, 0, 0, 0, 0, 0,
       0] := by decide +kernel

/-! ### Profiles and zones -/

theorem witness_StagingRequests :
    (∃ rq no p s, LocalTurn .stageProfile 0 rq s ∧ parseStageProfile rq.body = some (no, p) ∧ failingField p = none) ∧
    (∃ rq no p s, LocalTurn .stageProfile 0 rq s ∧ parseStageProfile rq.body = some (no, p) ∧ p.fullRef = p.emptyRef) ∧
    (∃ rq no s, LocalTurn .readProfile 0 rq s ∧ parseProfileNo rq.body = some no ∧ no = 31) ∧
    (∃ rq z p s, LocalTurn .stageZone 0 rq s ∧ parseStageZone rq.body = some (z, p) ∧ 1 ≤ p.collect ∧ p.collect ≤ p.urgent ∧ p.urgent ≤ 100) ∧
    ∃ rq z p s, LocalTurn .stageZone 0 rq s ∧ parseStageZone rq.body = some (z, p) ∧ p.urgent = 101 :=
  ⟨⟨_, _, _, _, asked_local (device .running) .stageProfile 0 [31, 1, 0x0F, 0xFF, 0, 0, 100, 5, 0xA0, 100, 0x27, 0x60, 15] rfl rfl, rfl,
      by decide⟩,
    ⟨_, _, _, _, asked_local (device .running) .stageProfile 0 [0, 0, 0x0F, 0xFF, 0x0F, 0xFF, 1, 0, 1, 1, 0, 10, 0] rfl rfl, rfl, rfl⟩,
    ⟨_, _, _, asked_local (device .running) .readProfile 0 [31] rfl rfl, rfl, rfl⟩,
    ⟨_, _, _, _, asked_local (device .running) .stageZone 0 [63, 1, 100] rfl rfl, rfl, by decide, by decide, by decide⟩,
    _, _, _, _, asked_local (device .running) .stageZone 0 [63, 1, 101] rfl rfl, rfl, rfl⟩

/-- A walk that runs, with a slot ahead. -/
def ageing : Walker := { Walker.reset with running := some ⟨.age, none⟩ }

theorem witness_ApplyProfilesCopiesStagedSet :
    (∃ rq g s, StoreTurn .applyProfiles 0 rq g s ∧ s.walkerAtRest ∧ rq.body = [] ∧ classConflicts s.profiles ≠ []) ∧
    (∃ rq g s, StoreTurn .applyProfiles 0 rq g s ∧ s.walkerAtRest ∧ rq.body = [] ∧ classConflicts s.profiles = [] ∧
      changedProfiles s.profiles ≠ [] ∧ s.walker.running = none ∧ ∃ x ∈ s.store.slots, x.2.key.profile ∈ changedProfiles s.profiles) ∧
    (∃ rq g s, StoreTurn .applyProfiles 0 rq g s ∧ s.walkerAtRest ∧ rq.body = [] ∧ classConflicts s.profiles = [] ∧
      changedProfiles s.profiles ≠ [] ∧ s.walker.running = some ⟨.age, none⟩) ∧
    (∃ rq g s, StoreTurn .applyProfiles 0 rq g s ∧ s.walkerAtRest ∧ rq.body = [] ∧ classConflicts s.profiles = [] ∧
      changedProfiles s.profiles = []) ∧
    ∃ rq g s, StoreTurn .applyProfiles 0 rq g s ∧ s.walkerAtRest ∧ rq.body = [] ∧ classConflicts s.profiles = [] ∧
      changedProfiles s.profiles ≠ [] ∧ s.walker.running = none ∧ ∀ x ∈ s.store.slots, x.2.key.profile ∉ changedProfiles s.profiles :=
  ⟨⟨_, _, _, asked_turn { device .running with profiles := { testProfiles with
        staged := vset testProfiles.staged 0 { litterProfile with cls := .glass } } } .applyProfiles 0 [] rfl rfl, device_rest .running, rfl,
      by decide +kernel⟩,
    ⟨_, _, _, asked_turn (device .running) .applyProfiles 0 [] rfl rfl, device_rest .running, rfl, by decide +kernel, by decide +kernel, rfl,
      by decide +kernel⟩,
    ⟨_, _, _, asked_turn { device .running with walker := ageing } .applyProfiles 0 [] rfl rfl, rfl, rfl, by decide +kernel,
      by decide +kernel, rfl⟩,
    ⟨_, _, _, asked_turn { device .running with profiles := { testProfiles with staged := testProfiles.active } } .applyProfiles 0 [] rfl rfl,
      device_rest .running, rfl, by decide +kernel, by decide +kernel⟩,
    _, _, _, asked_turn { device .running with profiles := { testProfiles with staged := vset testProfiles.active 31 litterProfile } }
      .applyProfiles 0 [] rfl rfl, device_rest .running, rfl, by decide +kernel, by decide +kernel, rfl, by decide +kernel⟩

theorem witness_ApplyZoneCopiesStagedPair :
    (∃ rq g s, StoreTurn .applyZone 0 rq g s ∧ s.walkerAtRest ∧ parseZoneNo rq.body = some 0 ∧ s.walker.running = some ⟨.age, none⟩) ∧
    (∃ rq g s, StoreTurn .applyZone 0 rq g s ∧ s.walkerAtRest ∧ parseZoneNo rq.body = some 0 ∧ s.walker.running = none ∧
      ∃ x ∈ s.store.slots, x.2.key.zone = 0) ∧
    ∃ rq g s, StoreTurn .applyZone 0 rq g s ∧ s.walkerAtRest ∧ parseZoneNo rq.body = some 63 ∧ s.walker.running = none ∧
      ∀ x ∈ s.store.slots, x.2.key.zone ≠ 63 :=
  ⟨⟨_, _, _, asked_turn { device .running with walker := ageing } .applyZone 0 [0] rfl rfl, rfl, rfl, rfl⟩,
    ⟨_, _, _, asked_turn (device .running) .applyZone 0 [0] rfl rfl, device_rest .running, rfl, rfl, by decide +kernel⟩,
    _, _, _, asked_turn (device .running) .applyZone 0 [63] rfl rfl, device_rest .running, rfl, rfl, by decide +kernel⟩

theorem witness_ZoneAndWatchRequests :
    (∃ rq g s, StoreTurn .setZoneAttributes 0 rq g s ∧ s.walkerAtRest ∧ parseZoneAttributes rq.body = some (63, true, false)) ∧
    (∃ rq g s, StoreTurn .zoneSummary 7 rq g s ∧ s.walkerAtRest ∧ parseZoneNo rq.body = some 0) ∧
    (∃ rq g s, StoreTurn .watch 7 rq g s ∧ s.walkerAtRest ∧ parseZoneNo rq.body = some 63) ∧
    ∃ rq g s, StoreTurn .unwatch 7 rq g s ∧ s.walkerAtRest ∧ parseZoneNo rq.body = some 63 :=
  ⟨⟨_, _, _, asked_turn (device .config) .setZoneAttributes 0 [63, 1, 0] rfl rfl, device_rest .config, rfl⟩,
    ⟨_, _, _, asked_turn (device .config) .zoneSummary 7 [0] rfl rfl, device_rest .config, rfl⟩,
    ⟨_, _, _, asked_turn (device .config) .watch 7 [63] rfl rfl, device_rest .config, rfl⟩,
    _, _, _, asked_turn (device .config) .unwatch 7 [63] rfl rfl, device_rest .config, rfl⟩

/-! ### Routes -/

/-- No HELD route of the tests' store has an owner and a tag other than 1 and 9. -/
theorem no_such_route {ch : Channel} {tag : Word16} (h : ¬ ((1 : Channel) = ch ∧ 9#16 = tag)) :
    ∀ j rt, vget testStore.routes j = some rt → ¬ (rt.owner = ch ∧ rt.tag = tag) := by
  intro j rt hj
  have := all_routes (v := testStore.routes) (fun rt => rt == testRoute) (by decide +kernel) j rt hj
  rw [eq_of_beq this]
  exact h

/-- CLAIM's turn on a channel. -/
def claiming (c : Condition) (st : RecordStore) (ch : Channel) (body : List Byte) : State := asked { device c with store := st } .claim ch body

theorem witness_ClaimChecksInOrder :
    (∃ rq g s, StoreTurn .claim 2 rq g s ∧ s.walkerAtRest ∧ s.control.condition = .config) ∧
    (∃ rq g s, StoreTurn .claim 2 rq g s ∧ s.walkerAtRest ∧ s.control.condition = .running ∧ parseClaim rq.body = none) ∧
    (∃ rq g s q, StoreTurn .claim 1 rq g s ∧ s.walkerAtRest ∧ s.control.condition = .running ∧ parseClaim rq.body = some q ∧
      ∃ j rt, vget s.store.routes j = some rt ∧ rt.owner = 1 ∧ rt.tag = q.tag) ∧
    (∃ rq g s q, StoreTurn .claim 2 rq g s ∧ s.walkerAtRest ∧ s.control.condition = .running ∧ parseClaim rq.body = some q ∧
      (∀ j rt, vget s.store.routes j = some rt → ¬ (rt.owner = 2 ∧ rt.tag = q.tag)) ∧ ∀ j, vget s.store.routes j ≠ none) ∧
    (∃ rq g s q, StoreTurn .claim 2 rq g s ∧ s.walkerAtRest ∧ s.control.condition = .running ∧ parseClaim rq.body = some q ∧
      (∀ j rt, vget s.store.routes j = some rt → ¬ (rt.owner = 2 ∧ rt.tag = q.tag)) ∧ (∃ j, vget s.store.routes j = none) ∧
      s.store.sound ∧ (claimRefusals s.store q.bins).map RefusalEntry.reason = [.unknown, .poisoned, .claimed 0 1, .repeated]) ∧
    ∀ b : Bool, ∃ rq g s q, StoreTurn .claim 2 rq g s ∧ s.walkerAtRest ∧ s.control.condition = .running ∧ parseClaim rq.body = some q ∧
      (∀ j rt, vget s.store.routes j = some rt → ¬ (rt.owner = 2 ∧ rt.tag = q.tag)) ∧ (∃ j, vget s.store.routes j = none) ∧ s.tablesInOrder ∧
      (claimReads q.bins (workOf s g)).halting = b ∧ q.bins = [5] ++ 6 :: [] ∧ 6 ∉ [5] ∧ ∃ r, s.store.holds 6 1 r ∧ r.readingHealth = .double ∧
      claimRefusals (claimReads q.bins (workOf s g)).store q.bins ≠ [] :=
  ⟨⟨_, _, _, asked_turn (device .config) .claim 2 [] rfl rfl, device_rest .config, rfl⟩,
    ⟨_, _, _, asked_turn (device .running) .claim 2 [0, 9, 0, 0, 1, 0, 0, 0, 5] rfl rfl, device_rest .running, rfl, by decide +kernel⟩,
    ⟨_, _, _, _, asked_turn (device .running) .claim 1 [0, 9, 0, 1, 1, 0, 0, 0, 5] rfl rfl, device_rest .running, rfl, rfl, 0, testRoute,
      by decide +kernel, rfl, rfl⟩,
    ⟨_, _, _, _, asked_turn { device .running with store := { testStore with routes := Vector.replicate 64 (some testRoute) } } .claim 2
        [0, 9, 0, 1, 1, 0, 0, 0, 5] rfl rfl, device_rest .running, rfl, rfl,
      fun j rt hj => by
        have := all_routes (v := Vector.replicate 64 (some testRoute)) (fun rt => rt == testRoute) (by decide +kernel) j rt hj
        rw [eq_of_beq this]; decide,
      by decide +kernel⟩,
    ⟨_, _, _, _, asked_turn (device .running) .claim 2 [0, 9, 5, 0xA0, 4, 0, 0, 0, 9, 0, 0, 0, 7, 0, 0, 0, 6, 0, 0, 0, 6] rfl rfl,
      device_rest .running, rfl, rfl, no_such_route (by decide), ⟨1, by decide +kernel⟩, testStore_sound, by decide +kernel⟩,
    fun b => ⟨_, _, asked (ailingDevice .running (if b then .double else .single) .double) .claim 2 [0, 9, 5, 0xA0, 2, 0, 0, 0, 5, 0, 0, 0, 6],
      ⟨9, 1440, [5, 6]⟩, asked_turn _ _ _ _ rfl rfl, ⟨rfl, rfl, rfl⟩, rfl, rfl, no_such_route (by decide), ⟨1, free_1⟩,
      tables_asked (ailing_tables .running _ .double) _ _ _, by cases b <;> decide +kernel, rfl, by decide, _,
      ⟨by cases b <;> decide +kernel, rfl⟩, rfl, by cases b <;> decide +kernel⟩⟩

theorem witness_ClaimGranted :
    ∃ rq g q s, StoreTurn .claim 2 rq g s ∧ s.walkerAtRest ∧ s.store.sound ∧ s.control.condition = .running ∧ parseClaim rq.body = some q ∧
      (∀ j rt, vget s.store.routes j = some rt → ¬ (rt.owner = 2 ∧ rt.tag = q.tag)) ∧ vget s.store.routes 1 = none ∧
      (∀ j < 1, vget s.store.routes j ≠ none) ∧ q.bins.Nodup ∧ [0].length = q.bins.length ∧
      ∀ p ∈ q.bins.zip [0], ∃ r, s.store.holds p.1 p.2 r ∧ r.key.bin = p.1 ∧ r.key.state ≠ .poisoned ∧ r.key.claim = none ∧
        (s.zone r.key.zone).claimLock = false :=
  ⟨_, _, _, _, asked_turn (device .running) .claim 2 [0, 9, 5, 0xA0, 1, 0, 0, 0, 5] rfl rfl, device_rest .running, testStore_sound, rfl, rfl,
    no_such_route (by decide), by decide +kernel, by decide +kernel, by decide, rfl, fun p hp => by
      have hp' : p = (5, 0) := List.mem_singleton.1 hp
      subst hp'
      exact ⟨liveRecord 5 none, holds_5, rfl, by decide, rfl, by decide +kernel⟩⟩

theorem testRoute_held (b : State) (h : b.store = testStore) : membersHeld 0 testRoute b := by
  refine ⟨by decide, fun m hm hp => ?_⟩
  rw [h]
  simp only [testRoute, List.mem_cons, List.not_mem_nil, or_false] at hm
  rcases hm with rfl | rfl
  · exact ⟨liveRecord 6 (some 0), by decide +kernel, rfl, rfl, by decide⟩
  · exact ⟨liveRecord 8 (some 0), by decide +kernel, rfl, rfl, by decide⟩

theorem ailing_held (k h : Health) (b : State) (hb : b.store = ailingStore k h) : membersHeld 0 testRoute b := by
  refine ⟨by decide, fun m hm _ => ?_⟩
  rw [hb]
  simp only [testRoute, List.mem_cons, List.not_mem_nil, or_false] at hm
  rcases hm with rfl | rfl
  · exact ⟨ailing 6 (some 0) k h, rfl, rfl, rfl, nofun⟩
  · exact ⟨liveRecord 8 (some 0), rfl, rfl, rfl, by decide⟩

theorem witness_ExtendAndRouteStatus :
    (∃ rq g s, StoreTurn .extend 2 rq g s ∧ s.walkerAtRest ∧ parseExtend rq.body = some (0, 9, 1440) ∧
      ∀ rt, vget s.store.routes 0 = some rt → ¬ (rt.owner = 2 ∧ rt.tag = 9)) ∧
    (∃ rq g s, StoreTurn .extend 1 rq g s ∧ s.walkerAtRest ∧ parseExtend rq.body = some (0, 9, 1) ∧ vget s.store.routes 0 = some testRoute ∧
      testRoute.owner = 1 ∧ testRoute.tag = 9) ∧
    (∃ rq g s, StoreTurn .routeStatus 1 rq g s ∧ s.walkerAtRest ∧ parseRouteStatus rq.body = some 63 ∧ vget s.store.routes 63 = none) ∧
    ∃ rq g s, StoreTurn .routeStatus 1 rq g s ∧ s.walkerAtRest ∧ parseRouteStatus rq.body = some 0 ∧ vget s.store.routes 0 = some testRoute :=
  ⟨⟨_, _, _, asked_turn (device .running) .extend 2 [0, 0, 9, 5, 0xA0] rfl rfl, device_rest .running, rfl,
      no_such_route (by decide) 0⟩,
    ⟨_, _, _, asked_turn (device .running) .extend 1 [0, 0, 9, 0, 1] rfl rfl, device_rest .running, rfl, held_0, rfl, rfl⟩,
    ⟨_, _, _, asked_turn (device .running) .routeStatus 1 [63] rfl rfl, device_rest .running, rfl, by decide +kernel⟩,
    _, _, _, asked_turn (device .running) .routeStatus 1 [0] rfl rfl, device_rest .running, rfl, held_0⟩

theorem witness_ReleaseFreesMembers :
    (∃ rq g s, StoreTurn .release 2 rq g s ∧ parseRelease rq.body = some (0, 9, none) ∧ s.walkerAtRest ∧
      ∀ rt, vget s.store.routes 0 = some rt → ¬ (rt.owner = 2 ∧ rt.tag = 9)) ∧
    (∃ rq g s, StoreTurn .release 1 rq g s ∧ parseRelease rq.body = some (0, 9, none) ∧ vget s.store.routes 0 = some testRoute ∧
      testRoute.owner = 1 ∧ testRoute.tag = 9 ∧ s.store.sound ∧ membersHeld 0 testRoute s ∧ s.walkerAtRest) ∧
    (∃ rq g s, StoreTurn .release 1 rq g s ∧ parseRelease rq.body = some (0, 9, some [8, 8]) ∧ vget s.store.routes 0 = some testRoute ∧
      testRoute.owner = 1 ∧ testRoute.tag = 9 ∧ s.store.sound ∧ s.store.keysReadable [3] ∧ membersHeld 0 testRoute s ∧ s.walkerAtRest) ∧
    (∃ rq g s, StoreTurn .release 1 rq g s ∧ parseRelease rq.body = some (0, 9, none) ∧ vget s.store.routes 0 = some testRoute ∧
      membersHeld 0 testRoute s ∧ s.walkerAtRest ∧ s.store.keysReadable [1, 3] ∧ s.store.readingLost 1 = true ∧ s.store.readingLost 3 = false) ∧
    ∃ rq g s r, StoreTurn .release 1 rq g s ∧ parseRelease rq.body = some (0, 9, some [8, 6]) ∧ vget s.store.routes 0 = some testRoute ∧
      membersHeld 0 testRoute s ∧ s.store.keysReadable [3] ∧ sfind 1 s.store.slots = some r ∧ r.keyHealth = .double ∧
      [⟨8, 3, .pending⟩, ⟨6, 1, .pending⟩] = [⟨8, 3, .pending⟩] ++ (⟨6, 1, .pending⟩ : Member) :: [] :=
  ⟨⟨_, _, _, asked_turn (device .running) .release 2 [0, 0, 9, 0] rfl rfl, rfl, device_rest .running, no_such_route (by decide) 0⟩,
    ⟨_, _, _, asked_turn (device .running) .release 1 [0, 0, 9, 0] rfl rfl, rfl, held_0, rfl, rfl, testStore_sound, testRoute_held _ rfl,
      device_rest .running⟩,
    ⟨_, _, _, asked_turn (device .running) .release 1 [0, 0, 9, 2, 0, 0, 0, 8, 0, 0, 0, 8] rfl rfl, rfl, held_0, rfl, rfl, testStore_sound,
      device_keys _, testRoute_held _ rfl, device_rest .running⟩,
    ⟨_, _, _, asked_turn (ailingDevice .running .single .double) .release 1 [0, 0, 9, 0] rfl rfl, rfl, held_0, ailing_held _ _ _ rfl,
      ⟨rfl, rfl, rfl⟩, ailing_keys (by decide) _ _, rfl, rfl⟩,
    _, _, _, _, asked_turn (ailingDevice .running .double .single) .release 1 [0, 0, 9, 2, 0, 0, 0, 8, 0, 0, 0, 6] rfl rfl, rfl, held_0,
    ailing_held _ _ _ rfl, ailing_key_3 _ _, rfl, rfl, rfl⟩

/-- CONFIRM's turn on channel 1 for bin 6 of route 0, on a device whose slot 1 holds a record. -/
def confirming (r : BinRecord) (t : Byte) : State :=
  asked { device .running with store := { testStore with slots := [(0, liveRecord 5 none), (1, r)] } } .confirm 1
    [0, 0, 9, 0, 0, 0, 6, 0, 0, 0, t, 0]

theorem confirming_turn (r : BinRecord) (t : Byte) :
    StoreTurn .confirm 1 (request .confirm [0, 0, 9, 0, 0, 0, 6, 0, 0, 0, t, 0]) (grant 2) (confirming r t) :=
  asked_turn _ _ _ _ rfl rfl

/-- Bin 6, claimed, emptied at minute 4. -/
def emptiedRecord : BinRecord :=
  { liveRecord 6 (some 0) with reading := { (liveRecord 6 (some 0)).reading with emptiedTime := some 4, emptiedBy := some (.truck 1) } }

/-- Bin 6, claimed, with the health of its groups. -/
def hurtMember (k h : Health) : BinRecord := { liveRecord 6 (some 0) with keyHealth := k, readingHealth := h }

theorem witness_ConfirmHandsOver :
    (∃ rq g q s, StoreTurn .confirm 2 rq g s ∧ parseConfirm rq.body = some q ∧ s.walkerAtRest ∧
      ∀ rt, vget s.store.routes q.route = some rt → ¬ (rt.owner = 2 ∧ rt.tag = q.tag)) ∧
    (∃ rq g q s, StoreTurn .confirm 1 rq g s ∧ parseConfirm rq.body = some q ∧ s.walkerAtRest ∧
      vget s.store.routes q.route = some testRoute ∧ q.tag = 9 ∧ ∀ m ∈ testRoute.members, m.bin = q.bin → m.state ≠ .pending) ∧
    (∀ k h : Health, ∃ rq g q s r, StoreTurn .confirm 1 rq g s ∧ parseConfirm rq.body = some q ∧ s.walkerAtRest ∧ (∀ t, JobGoesOn s t) ∧
      vget s.store.routes q.route = some testRoute ∧ testRoute.owner = 1 ∧ testRoute.tag = q.tag ∧
      (testRoute.members.map Member.bin).Nodup ∧ ⟨q.bin, 1, .pending⟩ ∈ testRoute.members ∧ sfind 1 s.store.slots = some r ∧
      r.key.bin = q.bin ∧ r.key.claim = some q.route ∧ r.keyHealth = k ∧ r.readingHealth = h) ∧
    ∀ (r : BinRecord) (t : Byte), r = emptiedRecord ∨ r = { poisonedRecord 6 with key := { (poisonedRecord 6).key with claim := some 0 } } →
      t = 4 ∨ t = 5 ∨ t = 12 ∨ t = 13 →
      ∃ rq g q s, StoreTurn .confirm 1 rq g s ∧ parseConfirm rq.body = some q ∧ s.walkerAtRest ∧ q.time.toNat = t.toNat ∧
        g.clock.toNat = 10 ∧ vget s.store.routes q.route = some testRoute ∧ testRoute.owner = 1 ∧ testRoute.tag = q.tag ∧
        (testRoute.members.map Member.bin).Nodup ∧ ⟨q.bin, 1, .pending⟩ ∈ testRoute.members ∧ s.store.sound ∧
        sfind 1 s.store.slots = some r ∧ r.key.bin = q.bin ∧ r.key.claim = some q.route := by
  refine ⟨⟨_, _, _, _, asked_turn (device .running) .confirm 2 [0, 0, 9, 0, 0, 0, 6, 0, 0, 0, 5, 0] rfl rfl, rfl, device_rest .running,
      no_such_route (by decide) 0⟩,
    ⟨_, _, _, _, asked_turn (device .running) .confirm 1 [0, 0, 9, 0, 0, 0, 7, 0, 0, 0, 5, 0] rfl rfl, rfl, device_rest .running, held_0, rfl,
      by decide⟩,
    fun k h => ⟨_, _, _, _, _, confirming_turn (hurtMember k h) 5, rfl, ⟨rfl, rfl, rfl⟩, idle_goesOn rfl, held_0, rfl, rfl, by decide,
      member_6, rfl, rfl, rfl, rfl, rfl⟩, ?_⟩
  intro r t hr ht
  have hp : parseConfirm [0, 0, 9, 0, 0, 0, 6, 0, 0, 0, t, 0] = some ⟨0, 9, 6, be32 0 0 0 t, none⟩ := by
    rcases ht with rfl | rfl | rfl | rfl <;> rfl
  refine ⟨_, _, _, _, confirming_turn r t, hp, ⟨rfl, rfl, rfl⟩, by rcases ht with rfl | rfl | rfl | rfl <;> rfl, rfl, held_0, rfl, rfl,
    by decide, by simp [testRoute], ?_, rfl, ?_, ?_⟩ <;> rcases hr with rfl | rfl
  · exact (by unfold RecordStore.sound; decide : ({ testStore with slots := [(0, liveRecord 5 none), (1, emptiedRecord)] } : RecordStore).sound)
  · refine ⟨rfl, rfl, ?_⟩
    intro p hp
    simp only [confirming, asked, List.mem_cons, List.not_mem_nil, or_false] at hp
    rcases hp with rfl | rfl <;> exact ⟨rfl, rfl⟩
  all_goals rfl

/-! ### Exports -/

/-- EXPORT's turn on a channel for zone 0, with a free row count read at the grant. -/
def exporting (c : Condition) (ch : Channel) (most : Byte) (free : Nat) : State :=
  { asked { device c with store := readyStore } .zoneExport ch [0, 0, most] with
    arbiter := { pointer := 0, store := .granted { grant (posOf ch) with freeRows := free } } }

theorem exporting_turn (c : Condition) (ch : Channel) (most : Byte) (free : Nat) (h : c ≠ .halted) :
    StoreTurn .zoneExport ch (request .zoneExport [0, 0, most]) { grant (posOf ch) with freeRows := free } (exporting c ch most free) :=
  ⟨rfl, asked_head _ _ _ _, rfl, rfl, rfl, by
    show commonRefusal .zoneExport ch [0, 0, most] c = none
    simp [commonRefusal, isReservedKind, h]⟩

theorem readyMembers_1 : (vget readyStore.zones 0).counters.readyMembers = 1 := by decide +kernel

theorem witness_ExportOpens :
    (∃ rq g s, StoreTurn .zoneExport 3 rq g s ∧ s.walkerAtRest ∧ parseZoneExport rq.body = some (0, 1) ∧ s.control.condition = .config) ∧
    (∃ rq g s, StoreTurn .zoneExport 3 rq g s ∧ s.walkerAtRest ∧ parseZoneExport rq.body = some (1, 512) ∧ s.control.condition = .running ∧
      min 512 (s.zone 1).counters.readyMembers = 0) ∧
    (∃ rq g s, StoreTurn .zoneExport 2 rq g s ∧ s.walkerAtRest ∧ parseZoneExport rq.body = some (0, 1) ∧ s.control.condition = .running ∧
      min 1 (s.zone 0).counters.readyMembers ≠ 0 ∧ s.place 2 ≠ none) ∧
    (∃ rq g s, StoreTurn .zoneExport 3 rq g s ∧ s.walkerAtRest ∧ parseZoneExport rq.body = some (0, 1) ∧ s.control.condition = .running ∧
      min 1 (s.zone 0).counters.readyMembers ≠ 0 ∧ s.place 3 = none ∧ g.freeRows < min 1 (s.zone 0).counters.readyMembers) ∧
    (∃ rq g s, StoreTurn .zoneExport 3 rq g s ∧ s.walkerAtRest ∧ parseZoneExport rq.body = some (0, 1) ∧ s.control.condition = .running ∧
      min 1 (s.zone 0).counters.readyMembers ≠ 0 ∧ s.place 3 = none ∧ min 1 (s.zone 0).counters.readyMembers ≤ g.freeRows ∧
      g.freeRows = 1 ∧ s.store.sound ∧ s.store.readyInOrder) ∧
    ∀ b : Bool, ∃ rq g s, StoreTurn .zoneExport 3 rq g s ∧ s.walkerAtRest ∧ parseZoneExport rq.body = some (0, 1) ∧
      s.control.condition = .running ∧ min 1 (s.zone 0).counters.readyMembers ≠ 0 ∧ s.place 3 = none ∧
      min 1 (s.zone 0).counters.readyMembers ≤ g.freeRows ∧ s.tablesInOrder ∧ (s.store.keysReadable [0] ↔ b = false) ∧
      (s.zone 0).readyList.take 1 = [0] ∧ s.store.readingLost 0 = true :=
  ⟨⟨_, _, _, exporting_turn .config 3 1 1 (by decide), ⟨rfl, rfl, rfl⟩, rfl, rfl⟩,
    ⟨_, _, _, asked_turn (device .running) .zoneExport 3 [1, 2, 0] rfl rfl, device_rest .running, rfl, rfl, by decide +kernel⟩,
    ⟨_, _, _, exporting_turn .running 2 1 1 (by decide), ⟨rfl, rfl, rfl⟩, rfl, rfl, by decide +kernel, by decide +kernel⟩,
    ⟨_, _, _, exporting_turn .running 3 1 0 (by decide), ⟨rfl, rfl, rfl⟩, rfl, rfl, by decide +kernel, by decide +kernel, by decide +kernel⟩,
    ⟨_, _, _, exporting_turn .running 3 1 1 (by decide), ⟨rfl, rfl, rfl⟩, rfl, rfl, by decide +kernel, by decide +kernel, by decide +kernel, rfl,
      (by unfold RecordStore.sound; decide : readyStore.sound), readyStore_inOrder⟩,
    fun b => ⟨_, _, asked (ailingDevice .running (if b then .double else .sound) .double) .zoneExport 3 [0, 0, 1], asked_turn _ _ _ _ rfl rfl,
      ⟨rfl, rfl, rfl⟩, rfl, rfl, by cases b <;> decide +kernel, by cases b <;> decide +kernel, by cases b <;> decide +kernel,
      tables_asked (ailing_tables .running _ .double) _ _ _, by
        cases b
        · exact ⟨fun _ => rfl, fun _ => ailing_keys (by decide) _ _⟩
        · exact ⟨fun h => absurd rfl (h 0 (by simp) _ rfl), nofun⟩,
      by cases b <;> decide +kernel, rfl⟩⟩

/-- The Expiry Unit's turn with an item on a device. -/
theorem due_turn (b : State) (i : DueItem) (h : b.settled = true) :
    DueTurn i (grant 10) (granted { b with expiry := { b.expiry with dueList := [i] } } 10) := ⟨h, rfl, rfl, rfl⟩

/-- The export that channel 2 of the device has open. -/
def testExport : OpenExport := ⟨0, [exportRowOf 0 (liveRecord 5 none)], 4⟩

theorem place_2 (c : Condition) : (device c).place 2 = some testExport := by
  show vget (vset (Vector.replicate 8 none) 2 (some testExport)) 2 = _
  simp

theorem witness_FetchAbortAndAbandonFreeRows :
    (∃ rq s, LocalTurn .fetch 3 rq s ∧ parseCount 16 rq.body = some 16 ∧ s.place 3 = none) ∧
    (∃ rq s, LocalTurn .fetch 2 rq s ∧ parseCount 16 rq.body = some 1 ∧ s.place 2 = some testExport ∧ testExport.rows.length = 1) ∧
    (∃ rq s, LocalTurn .abortExport 3 rq s ∧ rq.body = [] ∧ s.place 3 = none) ∧
    (∃ rq s, LocalTurn .abortExport 2 rq s ∧ rq.body = [] ∧ s.place 2 = some testExport) ∧
    (∃ g s, DueTurn (.zoneExport 2) g s ∧ s.walkerAtRest ∧ g.clock.toNat = 10 ∧ s.place 2 = some testExport ∧
      g.clock.toNat < testExport.lastActivity.toNat + s.control.params.idleLimit) ∧
    ∃ g s, DueTurn (.zoneExport 2) g s ∧ s.walkerAtRest ∧ s.place 2 = some testExport ∧
      testExport.lastActivity.toNat + s.control.params.idleLimit ≤ g.clock.toNat ∧ s.control.params.idleLimit = 6 :=
  ⟨⟨_, _, asked_local (device .running) .fetch 3 [16] rfl rfl, rfl, by decide +kernel⟩,
    ⟨_, _, asked_local (device .running) .fetch 2 [1] rfl rfl, rfl, place_2 .running, rfl⟩,
    ⟨_, _, asked_local (device .running) .abortExport 3 [] rfl rfl, rfl, by decide +kernel⟩,
    ⟨_, _, asked_local (device .running) .abortExport 2 [] rfl rfl, rfl, place_2 .running⟩,
    ⟨_, _, due_turn (device .running) (.zoneExport 2) rfl, device_rest .running, rfl, place_2 .running, by decide⟩,
    _, _, due_turn { device .running with control := { (device .running).control with params := ⟨15, 6, 20⟩ } } (.zoneExport 2) rfl,
    device_rest .running, place_2 .running, by decide, rfl⟩

/-! ### Notices and resets of channels -/

/-- A READY notice for a bin. -/
def readyNotice (bin : BinNumber) : Notice := ⟨.ready, some 0, none, some bin, 10, some (.fill 90)⟩

/-- A device whose channel 4 has a mask, an overflow flag and a number of READY notices. -/
def noticed (mask : BitVec 16) (overflow : Bool) (n : Nat) : State :=
  { device .running with channels := vset (Vector.replicate 8 ChannelState.reset) 4 {
      queue := [], notices := (List.range n).map (fun k => readyNotice (BitVec.ofNat 32 (k + 1))), overflow := overflow, mask := mask,
      attn := decide (0 < n) } }

theorem witness_NoticeOffered :
    (((noticed 0xFFFE#16 false 0).chan 4).mask.getLsbD (noticeCode NoticeKind.ready) = false) ∧
    (((noticed 0xFFFF#16 true 32).chan 4).mask.getLsbD (noticeCode NoticeKind.ready) = true ∧ ((noticed 0xFFFF#16 true 32).chan 4).overflow = true) ∧
    (((noticed 0xFFFF#16 false 32).chan 4).overflow = false ∧
      ∃ e ∈ ((noticed 0xFFFF#16 false 32).chan 4).notices, sameNotice e (readyNotice 32) = true) ∧
    (((noticed 0xFFFF#16 false 31).chan 4).notices.length = 31 ∧
      ∀ e ∈ ((noticed 0xFFFF#16 false 31).chan 4).notices, sameNotice e (readyNotice 40) = false) ∧
    ((noticed 0xFFFF#16 false 32).chan 4).notices.length = 32 ∧
      ∀ e ∈ ((noticed 0xFFFF#16 false 32).chan 4).notices, sameNotice e (readyNotice 40) = false := by
  decide +kernel

theorem witness_MaskAndTakeNotices :
    (∃ rq s, LocalTurn .setNoticeMask 7 rq s ∧ rq.body = [0xFF, 0]) ∧
    ∃ rq s, LocalTurn .takeNotices 4 rq s ∧ parseCount 8 rq.body = some 8 ∧ (s.chan 4).notices.length = 8 :=
  ⟨⟨_, _, asked_local (device .halted) .setNoticeMask 7 [0xFF, 0] rfl rfl, rfl⟩,
    _, _, asked_local (noticed 0xFFFF#16 true 8) .takeNotices 4 [8] rfl rfl, rfl, by decide +kernel⟩

theorem witness_ChannelResetClearsTarget :
    (∃ rq g s, StoreTurn .channelReset 0 rq g s ∧ s.walkerAtRest ∧ s.store.sound ∧ parseTarget rq.body = some 1 ∧
      s.control.condition = .running ∧ s.ownedBy 1 0 = true ∧ s.tablesInOrder) ∧
    (∃ rq g s, StoreTurn .channelReset 1 rq g s ∧ s.walkerAtRest ∧ s.store.sound ∧ parseTarget rq.body = some 1 ∧
      s.control.condition = .running) ∧
    (∃ rq g s, StoreTurn .channelReset 2 rq g s ∧ s.walkerAtRest ∧ s.store.sound ∧ parseTarget rq.body = some 2 ∧
      s.control.condition = .halted) ∧
    (∃ rq g s, StoreTurn .channelReset 0 rq g s ∧ s.walkerAtRest ∧ parseTarget rq.body = some 1 ∧ s.tablesInOrder ∧
      s.resetMembers 1 = testRoute.members ∧ s.store.keysReadable (testRoute.members.map Member.slot) ∧ s.store.readingLost 1 = true) ∧
    ∃ rq g s r, StoreTurn .channelReset 0 rq g s ∧ s.walkerAtRest ∧ parseTarget rq.body = some 1 ∧ s.tablesInOrder ∧
      s.resetMembers 1 = [] ++ ⟨6, 1, .pending⟩ :: [⟨8, 3, .pending⟩] ∧ s.store.keysReadable [] ∧ sfind 1 s.store.slots = some r ∧
      r.keyHealth = .double :=
  ⟨⟨_, _, _, asked_turn (device .running) .channelReset 0 [1] rfl rfl, device_rest .running, testStore_sound, rfl, rfl, by decide +kernel,
      tables_asked (device_tables .running) _ _ _⟩,
    ⟨_, _, _, asked_turn (device .running) .channelReset 1 [1] rfl rfl, device_rest .running, testStore_sound, rfl, rfl⟩,
    ⟨_, _, _, asked_turn (device .halted) .channelReset 2 [2] rfl rfl, device_rest .halted, testStore_sound, rfl, rfl⟩,
    ⟨_, _, _, asked_turn (ailingDevice .running .sound .double) .channelReset 0 [1] rfl rfl, ⟨rfl, rfl, rfl⟩, rfl,
      tables_asked (ailing_tables .running _ .double) _ _ _, by decide +kernel, ailing_keys (by decide) _ _, rfl⟩,
    _, _, _, _, asked_turn (ailingDevice .running .double .sound) .channelReset 0 [1] rfl rfl, ⟨rfl, rfl, rfl⟩, rfl,
    tables_asked (ailing_tables .running _ .sound) _ _ _, by decide +kernel, fun _ h => absurd h (by simp), rfl, rfl⟩

/-! ### Device Control and the clock -/

theorem witness_StartParametersStatus :
    (∃ rq g s, StoreTurn .start 0 rq g s ∧ s.walkerAtRest ∧ rq.body = [] ∧ s.control.condition = .config) ∧
    (∃ rq g s, StoreTurn .start 0 rq g s ∧ s.walkerAtRest ∧ rq.body = [] ∧ s.control.condition = .running) ∧
    (∃ rq s, LocalTurn .setParameters 0 rq s ∧ rq.body = [60, 60, 255]) ∧ (∃ rq s, LocalTurn .setParameters 0 rq s ∧ rq.body = [60, 61, 1]) ∧
    ∃ rq s, LocalTurn .status 0 rq s ∧ rq.body = [] ∧ s.control.condition = .halted :=
  ⟨⟨_, _, _, asked_turn (device .config) .start 0 [] rfl rfl, device_rest .config, rfl, rfl⟩,
    ⟨_, _, _, asked_turn (device .running) .start 0 [] rfl rfl, device_rest .running, rfl, rfl⟩,
    ⟨_, _, asked_local (device .running) .setParameters 0 [60, 60, 255] rfl rfl, rfl⟩,
    ⟨_, _, asked_local (device .running) .setParameters 0 [60, 61, 1] rfl rfl, rfl⟩,
    _, _, asked_local (device .halted) .status 0 [] rfl rfl, rfl, rfl⟩

theorem witness_TableResetEmptiesTables : ∃ rq g s, StoreTurn .tableReset 0 rq g s ∧ rq.body = [] ∧ s.control.condition = .halted :=
  ⟨_, _, _, asked_turn (device .halted) .tableReset 0 [] rfl rfl, rfl, rfl⟩

theorem witness_SetClockMovesClock :
    (∃ rq g s v, StoreTurn .setClock 0 rq g s ∧ s.walkerAtRest ∧ parseMinute rq.body = some v ∧ s.control.condition = .running ∧
      v.toNat < s.clock.minute.toNat) ∧
    (∃ rq g s v, StoreTurn .setClock 0 rq g s ∧ s.walkerAtRest ∧ parseMinute rq.body = some v ∧ s.clock.minute = v) ∧
    (∃ rq g s v, StoreTurn .setClock 0 rq g s ∧ s.walkerAtRest ∧ parseMinute rq.body = some v ∧ s.control.condition = .config ∧ v = 9) ∧
    (∃ rq g s v, StoreTurn .setClock 0 rq g s ∧ s.walkerAtRest ∧ parseMinute rq.body = some v ∧ s.control.condition = .config ∧
      s.clock.minute.toNat < v.toNat) ∧
    ∀ n : Byte, n = 24 ∨ n = 25 → ∃ rq g s v, StoreTurn .setClock 0 rq g s ∧ s.walkerAtRest ∧ parseMinute rq.body = some v ∧
      s.control.condition = .running ∧ s.clock.minute.toNat < v.toNat ∧ s.walker.ageCount = 0 ∧ s.control.params.ageInterval = 15 ∧
      v.toNat - s.clock.minute.toNat = if n = 24 then 14 else 15 :=
  ⟨⟨_, _, _, _, asked_turn (device .running) .setClock 0 [0, 0, 0, 9] rfl rfl, device_rest .running, rfl, rfl, by decide⟩,
    ⟨_, _, _, _, asked_turn (device .running) .setClock 0 [0, 0, 0, 10] rfl rfl, device_rest .running, rfl, rfl⟩,
    ⟨_, _, _, _, asked_turn (device .config) .setClock 0 [0, 0, 0, 9] rfl rfl, device_rest .config, rfl, rfl, rfl⟩,
    ⟨_, _, _, _, asked_turn (device .config) .setClock 0 [255, 255, 255, 255] rfl rfl, device_rest .config, rfl, rfl, by decide⟩,
    fun n hn => ⟨_, _, asked (device .running) .setClock 0 [0, 0, 0, n], be32 0 0 0 n, asked_turn _ _ _ _ rfl rfl, device_rest .running, rfl, rfl,
      by rcases hn with rfl | rfl <;> decide, rfl, rfl, by rcases hn with rfl | rfl <;> decide⟩⟩

/-! ### Walks -/

/-- The Walker's turn with a job before a slot. -/
def walking (b : State) (k : JobKind) (p : Option Nat) : State := granted { b with walker := { Walker.reset with running := some ⟨k, p⟩ } } 9

/-- The device with a record of bin 5 that last reported at a minute, at slot 0. -/
def reportedAt (t : Minute) : State :=
  { device .running with store := { testStore with
      slots := [(0, { liveRecord 5 none with reading := { (liveRecord 5 none).reading with reportTime := some t } }), (2, poisonedRecord 7)] } }

theorem witness_AgeVisitFindsSilentBins :
    (∃ j g r s, VisitTurn j 0 g s ∧ j.kind = .age ∧ s.store.sound ∧ sfind 0 s.store.slots = some r ∧ r.key.state = .live ∧
      r.reading.reportTime = some 0 ∧ (0 : Minute).toNat + (vget s.profiles.active r.key.profile).silence ≤ g.clock.toNat) ∧
    (∃ j g r s, VisitTurn j 0 g s ∧ j.kind = .age ∧ s.store.sound ∧ sfind 0 s.store.slots = some r ∧ r.key.state = .live ∧
      r.reading.reportTime = some 1 ∧ g.clock.toNat < (1 : Minute).toNat + (vget s.profiles.active r.key.profile).silence ∧
      (slotAhead s.store.slots ⟨.age, some 0⟩).isSome = true) ∧
    (∃ j g r s, VisitTurn j 2 g s ∧ j.kind = .age ∧ s.store.sound ∧ sfind 2 s.store.slots = some r ∧
      slotAhead s.store.slots ⟨.age, some 2⟩ = none ∧ s.walker.pendingRecal = none ∧ s.walker.pendingRescan = none ∧
      s.walker.pendingAge = false) ∧
    ∀ k h : Health, ∃ j g r s, VisitTurn j 0 g s ∧ s.control.condition ≠ .halted ∧ sfind 0 s.store.slots = some r ∧ r.keyHealth = k ∧
      r.readingHealth = h ∧ (slotAhead s.store.slots { j with position := some 0 }).isSome = true :=
  ⟨⟨⟨.age, none⟩, grant 9, _, walking (reportedAt 0) .age none, ⟨rfl, rfl, rfl, rfl, rfl⟩, rfl, by unfold RecordStore.sound; decide, rfl, rfl,
      rfl, by decide +kernel⟩,
    ⟨⟨.age, none⟩, grant 9, _, walking (reportedAt 1) .age none, ⟨rfl, rfl, rfl, rfl, rfl⟩, rfl, by unfold RecordStore.sound; decide, rfl, rfl,
      rfl, by decide +kernel, rfl⟩,
    ⟨⟨.age, some 0⟩, grant 9, _, walking (reportedAt 1) .age (some 0), ⟨rfl, rfl, rfl, rfl, rfl⟩, rfl, by unfold RecordStore.sound; decide, rfl,
      rfl, rfl, rfl, rfl⟩,
    fun k h => ⟨⟨.age, none⟩, grant 9, _,
      walking { device .running with store := { testStore with
        slots := [(0, { liveRecord 5 none with keyHealth := k, readingHealth := h }), (2, poisonedRecord 7)] } } .age none,
      ⟨rfl, rfl, rfl, rfl, rfl⟩, nofun, rfl, rfl, rfl, rfl⟩⟩

theorem witness_RescanAndRecalVisits :
    (∃ j g s, VisitTurn j 0 g s ∧ s.store.sound ∧ sfind 0 s.store.slots = some (liveRecord 5 none) ∧
      j.kind = .rescan (vset (Vector.replicate 64 false) 0 true)) ∧
    (∃ j g s, VisitTurn j 2 g s ∧ s.store.sound ∧ sfind 2 s.store.slots = some (poisonedRecord 7) ∧
      j.kind = .rescan (vset (Vector.replicate 64 false) 0 true)) ∧
    (∃ j g s, VisitTurn j 3 g s ∧ s.store.sound ∧ sfind 3 s.store.slots = some (liveRecord 8 (some 0)) ∧
      j.kind = .rescan (vset (Vector.replicate 64 false) 0 true) ∧ slotAhead s.store.slots { j with position := some 3 } = none ∧
      s.walker.pendingRecal = none ∧ s.walker.pendingRescan = none ∧ s.walker.pendingAge = false) ∧
    ∃ j g s, VisitTurn j 3 g s ∧ s.store.sound ∧ sfind 3 s.store.slots = some (liveRecord 8 (some 0)) ∧
      j.kind = .recal (vset (Vector.replicate 32 false) 0 true) ∧ slotAhead s.store.slots { j with position := some 3 } = none ∧
      s.walker.pendingRecal = none ∧ s.walker.pendingRescan = none ∧ s.walker.pendingAge = false :=
  ⟨⟨_, grant 9, walking (device .running) (.rescan (vset (Vector.replicate 64 false) 0 true)) none,
      ⟨rfl, rfl, by decide +kernel, rfl, rfl⟩, testStore_sound, by decide +kernel, rfl⟩,
    ⟨_, grant 9, walking (device .running) (.rescan (vset (Vector.replicate 64 false) 0 true)) (some 1),
      ⟨rfl, rfl, by decide +kernel, rfl, rfl⟩, testStore_sound, by decide +kernel, rfl⟩,
    ⟨_, grant 9, walking (device .running) (.rescan (vset (Vector.replicate 64 false) 0 true)) (some 2),
      ⟨rfl, rfl, by decide +kernel, rfl, rfl⟩, testStore_sound, by decide +kernel, rfl, by decide +kernel, rfl, rfl, rfl⟩,
    _, grant 9, walking (device .running) (.recal (vset (Vector.replicate 32 false) 0 true)) (some 2),
    ⟨rfl, rfl, by decide +kernel, rfl, rfl⟩, testStore_sound, by decide +kernel, rfl, by decide +kernel, rfl, rfl, rfl⟩

/-! ### The minute advance and the due list -/

/-- A device after a minute advance whose comparisons are outstanding. -/
def advanced (w : Walker) (routes : Option Minute) : State :=
  { device .running with walker := w, expiry := { (device .running).expiry with handedRoutes := routes, handedExports := some 20 } }

theorem witness_MinuteAdvanceAndComparisons :
    (∃ s : State, s.settled = true ∧ s.clock.minute = 0xFFFFFFFF#32) ∧ (∃ s : State, s.settled = true ∧ s.clock.minute = 0xFFFFFFFE#32) ∧
    (∃ s : State, s.expiry.handedRoutes = some 20 ∧ vget s.expiry.deadlines 0 = some 20) ∧
    (∃ s : State, s.expiry.handedRoutes = none ∧ s.expiry.handedExports = some 20 ∧ s.place 2 = some testExport) ∧
    (∃ s : State, s.walker.ageHanded = true ∧ s.walkerAtRest ∧ s.control.condition = .running ∧
      s.walker.ageCount + 1 = s.control.params.ageInterval) ∧
    (∃ s : State, s.walker.ageHanded = true ∧ s.walkerAtRest ∧ s.control.condition = .running ∧
      s.walker.ageCount = s.control.params.ageInterval ∧ s.walker.running = none ∧ s.store.slots ≠ []) ∧
    ∃ s : State, s.walker.ageHanded = true ∧ s.walkerAtRest ∧ s.control.condition = .running ∧
      s.walker.ageCount = s.control.params.ageInterval ∧ s.walker.running = some ⟨.age, none⟩ :=
  ⟨⟨{ device .running with clock := ⟨0xFFFFFFFF#32, 0⟩ }, rfl, rfl⟩, ⟨{ device .running with clock := ⟨0xFFFFFFFE#32, 0⟩ }, rfl, rfl⟩,
    ⟨advanced Walker.reset (some 20), rfl, by decide +kernel⟩, ⟨advanced Walker.reset none, rfl, rfl, place_2 .running⟩,
    ⟨advanced { Walker.reset with ageCount := 14, ageHanded := true } none, rfl, ⟨rfl, rfl, rfl⟩, rfl, rfl⟩,
    ⟨advanced { Walker.reset with ageCount := 15, ageHanded := true } none, rfl, ⟨rfl, rfl, rfl⟩, rfl, rfl, rfl, by decide⟩,
    advanced { ageing with ageCount := 15, ageHanded := true } none, rfl, rfl, rfl, rfl, rfl⟩

/-- The Expiry Unit's turn with route 0 at its deadline. -/
theorem expiring_turn (b : State) (h : b.settled = true) :
    DueTurn (.route 0) { grant 10 with clock := 20 }
      { b with expiry := { b.expiry with dueList := [.route 0] }, arbiter := { pointer := 0, store := .granted { grant 10 with clock := 20 } } } :=
  ⟨h, rfl, rfl, rfl⟩

theorem witness_RouteExpiryEndsDueRoute :
    (∃ g s, DueTurn (.route 63) g s ∧ s.walkerAtRest ∧ vget s.store.routes 63 = none) ∧
    (∃ g s, DueTurn (.route 0) g s ∧ s.walkerAtRest ∧ vget s.store.routes 0 = some testRoute ∧ g.clock.toNat < testRoute.deadline.toNat) ∧
    (∃ g s, DueTurn (.route 0) g s ∧ vget s.store.routes 0 = some testRoute ∧ g.clock = testRoute.deadline ∧ s.store.sound ∧
      s.store.keysReadable [1, 3] ∧ membersHeld 0 testRoute s ∧ s.walkerAtRest) ∧
    ∀ k : Health, ∃ g s r, DueTurn (.route 0) g s ∧ vget s.store.routes 0 = some testRoute ∧ g.clock = testRoute.deadline ∧
      s.control.condition ≠ .halted ∧ membersHeld 0 testRoute s ∧ s.walkerAtRest ∧ s.store.readingLost 1 = true ∧
      (k ≠ .double → s.store.keysReadable [1, 3]) ∧ s.store.keysReadable [] ∧ sfind 1 s.store.slots = some r ∧ r.keyHealth = k :=
  ⟨⟨_, _, due_turn (device .running) (.route 63) rfl, device_rest .running, by decide +kernel⟩,
    ⟨_, _, due_turn (device .running) (.route 0) rfl, device_rest .running, held_0, by decide⟩,
    ⟨_, _, expiring_turn (device .running) rfl, held_0, rfl, testStore_sound, device_keys _, testRoute_held _ rfl, device_rest .running⟩,
    fun k => ⟨_, _, _, expiring_turn (ailingDevice .running k .double) rfl, held_0, rfl, nofun, ailing_held _ _ _ rfl, ⟨rfl, rfl, rfl⟩, rfl,
      fun hk => ailing_keys hk _ _, fun _ h => absurd h (by simp), rfl, rfl⟩⟩

end Sys2Proof.Machine.Tests
end

section
/-! The field link's receiver: a byte in HUNT (R43), and what a break does on either link (R47, R164). -/

namespace Sys2Proof.Machine

/-! ### The commands in the settled device -/

theorem exec_byteReceived_of_settled (l : Link) (b : Byte) {s : State} (h : s.settled = true) :
    exec (.byteReceived l b) s = .next (s.takeByte l b).look :=
  congrArg Host.Outcome.next (takeEvent_of_settled (State.takeByte l b) h)

theorem exec_lineBreak_of_settled (l : Link) (cause : BreakCause) {s : State} (h : s.settled = true) :
    exec (.lineBreak l cause) s = .next (s.abandon l).look :=
  congrArg Host.Outcome.next (takeEvent_of_settled (State.abandon l) h)

/-! ### A byte taken in HUNT -/

theorem Receiver.take_of_hunt (f : LinkForm) (room : Bool) (limit : Nat) (b : Byte) {r : Receiver} (h : r.state = .hunt) :
    r.take f room limit b = r.hunt f room limit b := by
  rw [Receiver.take, h]

/-- The second marker byte after the first opens a frame, there being room for its response. -/
theorem Receiver.hunt_of_marker (f : LinkForm) (limit : Nat) {b : Byte} {r : Receiver} (hm : r.candidate = true ∧ b = f.marker) :
    r.hunt f true limit b = (Receiver.opened limit, .none) := by
  simp [Receiver.hunt, hm]

/-- The first marker byte sets the candidate, or keeps it set. -/
theorem Receiver.hunt_of_first (f : LinkForm) (room : Bool) (limit : Nat) {b : Byte} {r : Receiver}
    (hm : ¬ (r.candidate = true ∧ b = f.marker)) (hb : b = 0xD3#8) :
    r.hunt f room limit b = ({ Receiver.idle with candidate := true, gap := some limit }, .none) := by
  rw [Receiver.hunt, if_neg (by simpa using hm), if_pos hb]

/-- A byte of no marker is discarded, and clears the candidate. -/
theorem Receiver.hunt_of_other (f : LinkForm) (room : Bool) (limit : Nat) {b : Byte} {r : Receiver}
    (hm : ¬ (r.candidate = true ∧ b = f.marker)) (hb : b ≠ 0xD3#8) :
    r.hunt f room limit b = (Receiver.idle, .none) := by
  rw [Receiver.hunt, if_neg (by simpa using hm), if_neg hb]

/-- A byte in HUNT on the field link that brings about no event moves the receiver and nothing else. -/
theorem State.takeByte_field_of_hunt {b : Byte} {s : State} {r : Receiver} (h : s.fieldPort.rx.state = .hunt)
    (hr : s.fieldPort.rx.hunt fieldForm true s.control.params.gapLimit b = (r, .none)) :
    s.takeByte .field b = s.setRx .field r := by
  have htake : s.takeRx .field b = (r, .none) := (Receiver.take_of_hunt fieldForm true _ b h).trans hr
  rw [State.takeByte, htake, State.fieldEvent]

/-- Settles O15: the three cases of R43, a marker completed, a marker begun, and a byte discarded. -/
theorem fieldByteInHunt : Obligations.FieldByteInHunt := by
  intro b s hs hhunt
  rw [exec_byteReceived_of_settled .field b hs]
  by_cases hm : s.fieldPort.rx.candidate = true ∧ b = 0x91#8
  · rw [if_pos hm, State.takeByte_field_of_hunt hhunt (Receiver.hunt_of_marker fieldForm _ hm), Receiver.opened]
  · rw [if_neg hm]
    by_cases hb : b = 0xD3#8
    · rw [if_pos hb, State.takeByte_field_of_hunt hhunt (Receiver.hunt_of_first fieldForm _ _ hm hb), Receiver.idle]
    · rw [if_neg hb, State.takeByte_field_of_hunt hhunt (Receiver.hunt_of_other fieldForm _ _ hm hb), Receiver.idle]

/-! ### A frame or a candidate abandoned -/

theorem State.abandon_of_reception {l : Link} {s : State} (h : (s.rx l).state ≠ .hunt) :
    s.abandon l = (s.setRx l Receiver.idle).bump (abandonCounter l) := if_pos h

theorem State.abandon_of_candidate {l : Link} {s : State} (h : (s.rx l).state = .hunt) (hc : (s.rx l).candidate = true) :
    s.abandon l = s.setRx l Receiver.idle := by
  rw [State.abandon, if_neg (not_not_intro h), if_pos hc]

/-- In plain HUNT there is nothing to abandon. -/
theorem State.abandon_of_plain_hunt {l : Link} {s : State} (h : (s.rx l).state = .hunt) (hc : ¬ (s.rx l).candidate = true) :
    s.abandon l = s := by
  rw [State.abandon, if_neg (not_not_intro h), if_neg hc]

/-- Settles O21: a frame in reception, a marker candidate, and plain HUNT are the three cases of R47, on either link. -/
theorem breakAbandons : Obligations.BreakAbandons := by
  intro l cause s hs
  rw [exec_lineBreak_of_settled l cause hs]
  by_cases hhunt : (s.rx l).state = .hunt
  · rw [if_pos hhunt]
    by_cases hc : (s.rx l).candidate = true
    · rw [if_pos hc, State.abandon_of_candidate hhunt hc]
    · rw [if_neg hc, State.abandon_of_plain_hunt hhunt hc]
  · rw [if_neg hhunt, State.abandon_of_reception hhunt]
    cases l <;> rfl

end Sys2Proof.Machine
end

section
/-! PROOFS. The fill computation (R78): its two clamps, the share of the span between them, and the rounding of that share. -/

namespace Sys2Proof.Machine

/-! ### The rounded percentage -/

/-- The share `a / d` as a whole percent, by the floor of R78. -/
def roundedPercent (a d : Nat) : Nat := (a * 100 + d / 2) / d

/-- The rounded percentage is at most half a percent above the share. -/
theorem two_mul_roundedPercent_mul_le (a d : Nat) : 2 * roundedPercent a d * d ≤ 200 * a + d := by
  have hfloor : roundedPercent a d * d ≤ a * 100 + d / 2 := Nat.div_mul_le_self _ _
  calc 2 * roundedPercent a d * d
      = 2 * (roundedPercent a d * d) := Nat.mul_assoc ..
    _ ≤ 200 * a + d := by omega

/-- The rounded percentage is less than half a percent below the share, so that an exact half is rounded up. -/
theorem lt_two_mul_succ_roundedPercent_mul (a : Nat) {d : Nat} (hd : 0 < d) :
    200 * a + d < 2 * (roundedPercent a d + 1) * d := by
  have hfloor : a * 100 + d / 2 < (roundedPercent a d + 1) * d := Nat.lt_mul_of_div_lt (Nat.lt_succ_self _) hd
  calc 200 * a + d
      < 2 * ((roundedPercent a d + 1) * d) := by omega
    _ = 2 * (roundedPercent a d + 1) * d := (Nat.mul_assoc ..).symm

/-- A part of the whole is at most 100 percent of it. -/
theorem roundedPercent_le {a d : Nat} (hd : 0 < d) (h : a ≤ d) : roundedPercent a d ≤ 100 := by
  have hbound : a * 100 + d / 2 < 101 * d := by omega
  exact Nat.le_of_lt_succ (Nat.div_lt_of_lt_mul (Nat.mul_comm 101 d ▸ hbound))

/-! ### The cases of the fill computation -/

theorem computeFill_of_emptyRef_le {p : Profile} {r : Nat} (h : p.emptyRef ≤ r) : computeFill p r = 0 := if_pos h

/-- With a usable profile a reading at or below the full reference is below the empty reference, so that the clamp at 0 does not come first. -/
theorem computeFill_of_le_fullRef {p : Profile} {r : Nat} (hp : p.fullRef < p.emptyRef) (h : r ≤ p.fullRef) :
    computeFill p r = 100 := by
  rw [computeFill, if_neg (Nat.not_le.2 (Nat.lt_of_le_of_lt h hp)), if_pos h]

theorem computeFill_of_between {p : Profile} {r : Nat} (hfull : p.fullRef < r) (hempty : r < p.emptyRef) :
    computeFill p r = roundedPercent (p.emptyRef - r) (p.emptyRef - p.fullRef) := by
  rw [computeFill, if_neg (Nat.not_le.2 hempty), if_neg (Nat.not_le.2 hfull), roundedPercent]

/-- Every fill computed with a usable profile is a percentage. -/
theorem computeFill_le {p : Profile} (hp : p.fullRef < p.emptyRef) (r : Nat) : computeFill p r ≤ 100 := by
  rcases Nat.lt_or_ge r p.emptyRef with hempty | hempty
  · rcases Nat.lt_or_ge p.fullRef r with hfull | hfull
    · rw [computeFill_of_between hfull hempty]
      exact roundedPercent_le (Nat.sub_pos_of_lt hp) (Nat.sub_le_sub_left hfull.le _)
    · rw [computeFill_of_le_fullRef hp hfull]
  · rw [computeFill_of_emptyRef_le hempty]
    exact Nat.zero_le _

/-- Settles O27: the two clamps, and between the references the rounded percentage with its two bounds. -/
theorem fillIsRoundedShareOfSpan : Obligations.FillIsRoundedShareOfSpan := by
  intro p r hp
  refine ⟨computeFill_le hp r, computeFill_of_emptyRef_le, computeFill_of_le_fullRef hp, fun hfull hempty => ?_⟩
  rw [computeFill_of_between hfull hempty]
  exact ⟨rfl, two_mul_roundedPercent_mul_le _ _, lt_two_mul_succ_roundedPercent_mul _ (Nat.sub_pos_of_lt hp)⟩

end Sys2Proof.Machine
end
